-- ==== Sys2Proof/Word.lean ====
section
/-! DEFINITION. The two word types of the CORE (rules R7 and R9 of `00_scope.md`): bytes of 8 bits and words of
16 bits. Everything a test could show wrong (byte order, sign extension, bit fields) stands elsewhere. -/

namespace Sys2Proof

/-- An 8-bit value, `u8` of rule R7. -/
abbrev Byte := BitVec 8

/-- A 16-bit value, `u16` of rule R7: a register, a segment, an offset, a port number. -/
abbrev Word := BitVec 16

end Sys2Proof
end

