-- ==== Sys2Proof/Config.lean ====
section
/-! DEFINITION. What an implementation fixes: the open parameters of rule R8 (`00_scope.md`), as one structure that the
machine carries beside its state and never changes, and the free bits of rule R15. `MEM_INIT` is the memory argument of
`State.boot` (`Machine/State.lean`). -/

namespace Sys2Proof

/-- `ISA_LEVEL` (R2, R8): the 8086 set, or that set and the additions of `47_ext_80186.md`. -/
inductive IsaLevel
  | i8086
  | i80186
  deriving DecidableEq, Repr

/-- `FAULT_POLICY` (R8, R150, R151): what the driver does after a fault. -/
inductive FaultPolicy
  | halt
  | skip
  deriving DecidableEq, Repr

/-- The eight 16-bit general registers (R21). The byte halves are computed from them (R24). Also the type of the
parameter `RESET_GPR`. -/
structure Regs where
  ax : Word
  cx : Word
  dx : Word
  bx : Word
  sp : Word
  bp : Word
  si : Word
  di : Word
  deriving DecidableEq, Repr, Inhabited

/-- What a slot of the interrupt table holds when it is not absent (R35): the standard handler (R528), or a handler of the
environment, known to the CORE by a number only (R526). -/
inductive IntHandler
  | guestVector
  | host (id : Nat)
  deriving DecidableEq, Repr

/-- An entry of the port table (R36): a read handler and a write handler of the environment, each known by a number;
`none` where the port has no handler of that kind. -/
structure PortEntry where
  read  : Option Nat
  write : Option Nat
  deriving DecidableEq, Repr

/-- The open parameters of rule R8. -/
structure Config where
  /-- `ISA_LEVEL` -/
  isaLevel         : IsaLevel
  /-- `FAULT_POLICY` -/
  faultPolicy      : FaultPolicy
  /-- `PORT_IDLE_BYTE` -/
  portIdleByte     : Byte
  /-- `PORT_IDLE_WORD` -/
  portIdleWord     : Word
  /-- `INT_TABLE_INIT`: the vectors with a handler at reset, in rising order -/
  intTableInit     : List (Nat × IntHandler)
  /-- `PORT_TABLE_INIT`: the ports with a handler at reset, in rising order -/
  portTableInit    : List (Nat × PortEntry)
  /-- `RESET_GPR` -/
  resetGpr         : Regs
  /-- `HARDINT_GATED_BY_IF` -/
  hardintGatedByIf : Bool
  /-- `TF_SINGLE_STEP` -/
  tfSingleStep     : Bool
  /-- `STRICT_DIAG` -/
  strictDiag       : Bool
  deriving DecidableEq, Repr

/-- The defaults of rule R8. `RESET_GPR` has no default there: all zero is this model's choice.
DESIGN CHOICE (log 2), unsafe: the spec says that a model must not assume zero. -/
def Config.default : Config where
  isaLevel         := .i8086
  faultPolicy      := .halt
  portIdleByte     := 0xFF#8
  portIdleWord     := 0xFFFF#16
  intTableInit     := []
  portTableInit    := []
  resetGpr         := ⟨0#16, 0#16, 0#16, 0#16, 0#16, 0#16, 0#16, 0#16⟩
  hardintGatedByIf := true
  tfSingleStep     := false
  strictDiag       := false

/-- The free bit of draw number `n` (R15, `UNDEF_1`): an uninterpreted constant, so nothing can be proved of a value of it.
DESIGN CHOICE (log 4), safe. -/
opaque Config.freeBit : Nat → Bool

end Sys2Proof
end

