-- ==== Sys2Proof/Syntax.lean ====
section
/-! DEFINITION. The instructions of `spec/opcode_table.json` as data. One constructor of `Instr` for each mnemonic and rule
of the table; where several rows share both, the constructor's form argument has one constructor for each shape of row
(log 13). Prefix bytes and fault rows are rows of the table and so are constructors too. -/

namespace Sys2Proof

/-- The 16-bit general registers (R21). -/
inductive Reg16
  | ax | cx | dx | bx | sp | bp | si | di
  deriving DecidableEq, Repr

/-- The 8-bit registers: halves of AX, CX, DX, BX (R23, R24). -/
inductive Reg8
  | al | cl | dl | bl | ah | ch | dh | bh
  deriving DecidableEq, Repr

/-- The segment registers (R26). -/
inductive SReg
  | es | cs | ss | ds
  deriving DecidableEq, Repr

/-- The repeat-prefix kinds (R32): F3h is REPE, F2h is REPNE. -/
inductive RepKind
  | repe | repne
  deriving DecidableEq, Repr

/-- The eight base combinations of a memory operand, in `rm` order (R97). -/
inductive Base
  | bxSi | bxDi | bpSi | bpDi | si | di | bp | bx
  deriving DecidableEq, Repr

/-- The displacement of a based memory operand: none (`mod` 0), a byte (`mod` 1) or a word (`mod` 2) (R96). -/
inductive Disp
  | none
  | disp8 (d : Byte)
  | disp16 (d : Word)
  deriving DecidableEq, Repr

/-- A memory operand: the direct address of `mod` 0, `rm` 6 (R98), or a base combination with a displacement (R97). -/
inductive MemOp
  | direct (off : Word)
  | based (b : Base) (d : Disp)
  deriving DecidableEq, Repr

/-- A register-or-memory operand (R95, R160); `ρ` is the register type of the operand's width. -/
inductive RM (ρ : Type)
  | reg (r : ρ)
  | mem (m : MemOp)
  deriving DecidableEq, Repr

/-- `r/m8` (R19). -/
abbrev RM8 := RM Reg8
/-- `r/m16` (R19). -/
abbrev RM16 := RM Reg16

/-- The ten rows of a two-operand ALU operation (R266); `o` is the operation number. -/
inductive AluForm
  /-- `8o+0 /r` -/
  | rm8Reg8 (x : RM8) (r : Reg8)
  /-- `8o+1 /r` -/
  | rm16Reg16 (x : RM16) (r : Reg16)
  /-- `8o+2 /r` -/
  | reg8Rm8 (r : Reg8) (x : RM8)
  /-- `8o+3 /r` -/
  | reg16Rm16 (r : Reg16) (x : RM16)
  /-- `8o+4 ib` -/
  | alImm8 (i : Byte)
  /-- `8o+5 iw` -/
  | axImm16 (i : Word)
  /-- `80 /o ib` -/
  | rm8Imm8 (x : RM8) (i : Byte)
  /-- `81 /o iw` -/
  | rm16Imm16 (x : RM16) (i : Word)
  /-- `82 /o ib`: the alias of 80h (R122 a) -/
  | rm8Imm8Alias (x : RM8) (i : Byte)
  /-- `83 /o ib`: the byte is sign-extended (R94) -/
  | rm16Imm8 (x : RM16) (i : Byte)
  deriving DecidableEq, Repr

/-- The four rows of MOV between a register and r/m (R200). -/
inductive MovForm
  /-- `88 /r` -/
  | rm8Reg8 (x : RM8) (r : Reg8)
  /-- `89 /r` -/
  | rm16Reg16 (x : RM16) (r : Reg16)
  /-- `8A /r` -/
  | reg8Rm8 (r : Reg8) (x : RM8)
  /-- `8B /r` -/
  | reg16Rm16 (r : Reg16) (x : RM16)
  deriving DecidableEq, Repr

/-- The two rows of MOV r/m, imm (R201). -/
inductive RmImmForm
  /-- `C6 /0 ib` -/
  | rm8Imm8 (x : RM8) (i : Byte)
  /-- `C7 /0 iw` -/
  | rm16Imm16 (x : RM16) (i : Word)
  deriving DecidableEq, Repr

/-- The two rows of MOV r, imm (R202). -/
inductive RegImmForm
  /-- `B0+r ib` -/
  | reg8Imm8 (r : Reg8) (i : Byte)
  /-- `B8+r iw` -/
  | reg16Imm16 (r : Reg16) (i : Word)
  deriving DecidableEq, Repr

/-- The four rows of MOV accumulator, moffs (R203). -/
inductive MoffsForm
  /-- `A0 iw` -/
  | alMoffs (off : Word)
  /-- `A1 iw` -/
  | axMoffs (off : Word)
  /-- `A2 iw` -/
  | moffsAl (off : Word)
  /-- `A3 iw` -/
  | moffsAx (off : Word)
  deriving DecidableEq, Repr

/-- The two rows of XCHG r, r/m (R212). -/
inductive XchgForm
  /-- `86 /r` -/
  | reg8Rm8 (r : Reg8) (x : RM8)
  /-- `87 /r` -/
  | reg16Rm16 (r : Reg16) (x : RM16)
  deriving DecidableEq, Repr

/-- The four rows of IN and of OUT (R214, R215): byte or word, port in a byte or in DX. -/
inductive PortForm
  /-- `E4 ib`, `E6 ib` -/
  | byteImm (p : Byte)
  /-- `E5 ib`, `E7 ib` -/
  | wordImm (p : Byte)
  /-- `EC`, `EE` -/
  | byteDx
  /-- `ED`, `EF` -/
  | wordDx
  deriving DecidableEq, Repr

/-- The three rows of INC and of DEC (R275, R276). -/
inductive IncForm
  /-- `40+r`, `48+r` -/
  | reg16 (r : Reg16)
  /-- `FE /0`, `FE /1` -/
  | rm8 (x : RM8)
  /-- `FF /0`, `FF /1` -/
  | rm16 (x : RM16)
  deriving DecidableEq, Repr

/-- The two rows of a member of the unary groups F6h and F7h (R119). -/
inductive UnaryForm
  /-- `F6 /n` -/
  | rm8 (x : RM8)
  /-- `F7 /n` -/
  | rm16 (x : RM16)
  deriving DecidableEq, Repr

/-- The six rows of TEST (R323). -/
inductive TestForm
  /-- `84 /r` -/
  | rm8Reg8 (x : RM8) (r : Reg8)
  /-- `85 /r` -/
  | rm16Reg16 (x : RM16) (r : Reg16)
  /-- `A8 ib` -/
  | alImm8 (i : Byte)
  /-- `A9 iw` -/
  | axImm16 (i : Word)
  /-- `F6 /0 ib` -/
  | rm8Imm8 (x : RM8) (i : Byte)
  /-- `F7 /0 iw` -/
  | rm16Imm16 (x : RM16) (i : Word)
  deriving DecidableEq, Repr

/-- The six rows of a shift or rotate (R330, R490). -/
inductive ShiftForm
  /-- `D0 /n` -/
  | rm8One (x : RM8)
  /-- `D1 /n` -/
  | rm16One (x : RM16)
  /-- `D2 /n` -/
  | rm8Cl (x : RM8)
  /-- `D3 /n` -/
  | rm16Cl (x : RM16)
  /-- `C0 /n ib`, 80186 level -/
  | rm8Imm (x : RM8) (i : Byte)
  /-- `C1 /n ib`, 80186 level -/
  | rm16Imm (x : RM16) (i : Byte)
  deriving DecidableEq, Repr

/-- The instructions. -/
inductive Instr
  -- data transfer, 41_data_transfer.md
  | movRmReg (f : MovForm)
  | movRmImm (f : RmImmForm)
  | movRegImm (f : RegImmForm)
  | movMoffs (f : MoffsForm)
  | movRmSreg (x : RM16) (sr : SReg)
  | movSregRm (sr : SReg) (x : RM16)
  | pushReg (r : Reg16)
  | pushRm (x : RM16)
  | pushSreg (sr : SReg)
  | popReg (r : Reg16)
  | popRm (x : RM16)
  | popSreg (sr : SReg)
  | xchgRm (f : XchgForm)
  | xchgAx (r : Reg16)
  | inPort (f : PortForm)
  | outPort (f : PortForm)
  | xlat
  | lea (r : Reg16) (m : MemOp)
  | lds (r : Reg16) (m : MemOp)
  | les (r : Reg16) (m : MemOp)
  | lahf
  | sahf
  | pushf
  | popf
  -- arithmetic, 42_arithmetic.md
  | add (f : AluForm)
  | adc (f : AluForm)
  | sub (f : AluForm)
  | sbb (f : AluForm)
  | cmp (f : AluForm)
  | inc (f : IncForm)
  | dec (f : IncForm)
  | neg (f : UnaryForm)
  | mul (f : UnaryForm)
  | imul (f : UnaryForm)
  | div (f : UnaryForm)
  | idiv (f : UnaryForm)
  | daa
  | das
  | aaa
  | aas
  | aam (base : Byte)
  | aad (base : Byte)
  | cbw
  | cwd
  -- logic, shift and rotate, 43_logic_shift.md
  | and (f : AluForm)
  | or (f : AluForm)
  | xor (f : AluForm)
  | test (f : TestForm)
  | not (f : UnaryForm)
  | shl (f : ShiftForm)
  | shr (f : ShiftForm)
  | sar (f : ShiftForm)
  | rol (f : ShiftForm)
  | ror (f : ShiftForm)
  | rcl (f : ShiftForm)
  | rcr (f : ShiftForm)
  -- strings, 44_string.md
  | movsb
  | movsw
  | cmpsb
  | cmpsw
  | scasb
  | scasw
  | lodsb
  | lodsw
  | stosb
  | stosw
  -- control transfer, 45_control_transfer.md
  | jmpShort (d : Byte)
  | jmpNear (d : Word)
  | jmpRm (x : RM16)
  | jmpFar (off sg : Word)
  | jmpMemFar (m : MemOp)
  | callNear (d : Word)
  | callRm (x : RM16)
  | callFar (off sg : Word)
  | callMemFar (m : MemOp)
  | ret
  | retImm (k : Word)
  | retf
  | retfImm (k : Word)
  | jo (d : Byte)
  | jno (d : Byte)
  | jb (d : Byte)
  | jae (d : Byte)
  | je (d : Byte)
  | jne (d : Byte)
  | jbe (d : Byte)
  | ja (d : Byte)
  | js (d : Byte)
  | jns (d : Byte)
  | jp (d : Byte)
  | jnp (d : Byte)
  | jl (d : Byte)
  | jge (d : Byte)
  | jle (d : Byte)
  | jg (d : Byte)
  | loop (d : Byte)
  | loopz (d : Byte)
  | loopnz (d : Byte)
  | jcxz (d : Byte)
  | int (n : Byte)
  | int3
  | into
  | iret
  -- processor control, 46_processor_control.md
  | clc
  | stc
  | cmc
  | cld
  | std
  | cli
  | sti
  | hlt
  | wait
  | nop
  | esc (n : BitVec 3) (reg : BitVec 3) (x : RM16)
  -- the seven prefix bytes, R104
  | segEs
  | segCs
  | segSs
  | segDs
  | lock
  | repne
  | rep
  -- 80186 level, 47_ext_80186.md
  | pusha
  | popa
  | bound (r : Reg16) (m : MemOp)
  | pushImm16 (i : Word)
  | pushImm8 (i : Byte)
  | imulImm16 (r : Reg16) (x : RM16) (i : Word)
  | imulImm8 (r : Reg16) (x : RM16) (i : Byte)
  | insb
  | insw
  | outsb
  | outsw
  | enter (size : Word) (level : Byte)
  | leave
  -- the fault rows, R121 and R123
  | unrecognized (op : Byte)
  | decodeFault (op modrm : Byte)
  deriving DecidableEq, Repr

end Sys2Proof
end

