-- ==== Sys2Proof/WellFormed.lean ====
section
/-! DEFINITION. Which terms of `Instr` are instructions of the table at an `ISA_LEVEL`: `Instr.wf`. What is left out:
`[BP]` with no displacement (its bytes are the direct address, R98), XCHG AX, AX (its byte is NOP, R213), the CS forms that
are not admitted (R121, R123), the rows of the other `ISA_LEVEL` (R105), and fault rows of bytes that are no fault. -/

namespace Sys2Proof

/-- A memory operand some ModRM byte encodes: `mod` 0, `rm` 6 is the direct address, never `[BP]` (R98). -/
def MemOp.wf : MemOp → Bool
  | .direct _    => true
  | .based .bp .none => false
  | .based _ _   => true

/-- A register-or-memory operand some ModRM byte encodes. -/
def RM.wf {ρ : Type} : RM ρ → Bool
  | .reg _ => true
  | .mem m => m.wf

def AluForm.wf : AluForm → Bool
  | .rm8Reg8 x _ | .reg8Rm8 _ x | .rm8Imm8 x _ | .rm8Imm8Alias x _ => x.wf
  | .rm16Reg16 x _ | .reg16Rm16 _ x | .rm16Imm16 x _ | .rm16Imm8 x _ => x.wf
  | .alImm8 _ | .axImm16 _ => true

def MovForm.wf : MovForm → Bool
  | .rm8Reg8 x _ | .reg8Rm8 _ x => x.wf
  | .rm16Reg16 x _ | .reg16Rm16 _ x => x.wf

def RmImmForm.wf : RmImmForm → Bool
  | .rm8Imm8 x _ => x.wf
  | .rm16Imm16 x _ => x.wf

def XchgForm.wf : XchgForm → Bool
  | .reg8Rm8 _ x => x.wf
  | .reg16Rm16 _ x => x.wf

def IncForm.wf : IncForm → Bool
  | .reg16 _ => true
  | .rm8 x => x.wf
  | .rm16 x => x.wf

def UnaryForm.wf : UnaryForm → Bool
  | .rm8 x => x.wf
  | .rm16 x => x.wf

def TestForm.wf : TestForm → Bool
  | .rm8Reg8 x _ | .rm8Imm8 x _ => x.wf
  | .rm16Reg16 x _ | .rm16Imm16 x _ => x.wf
  | .alImm8 _ | .axImm16 _ => true

/-- The immediate counts are rows of the 80186 level only (R490). -/
def ShiftForm.wf (lvl : IsaLevel) : ShiftForm → Bool
  | .rm8One x | .rm8Cl x => x.wf
  | .rm16One x | .rm16Cl x => x.wf
  | .rm8Imm x _ => lvl == .i80186 && x.wf
  | .rm16Imm x _ => lvl == .i80186 && x.wf

/-- The unrecognized opcode bytes of rule R121: 23 at the 8086 level, 8 at the 80186 level. -/
def isUnrecognized (lvl : IsaLevel) (op : Byte) : Bool :=
  match lvl with
  | .i8086 => op == 0x0F#8 || (0x60#8 ≤ op && op ≤ 0x6F#8) || op == 0xC0#8 || op == 0xC1#8 || op == 0xC8#8 ||
      op == 0xC9#8 || op == 0xD6#8 || op == 0xF1#8
  | .i80186 => op == 0x0F#8 || (0x63#8 ≤ op && op ≤ 0x67#8) || op == 0xD6#8 || op == 0xF1#8

/-- The decode faults of rule R123, row by row: an opcode byte and the ModRM byte after it. -/
def isDecodeFault (lvl : IsaLevel) (op modrm : Byte) : Bool :=
  let md := modrm.toNat / 64
  let reg := modrm.toNat / 8 % 8
  (op == 0x8C#8 || op == 0x8E#8) && 4 ≤ reg ||
  op == 0x8E#8 && reg == 1 ||
  op == 0x8D#8 && md == 3 ||
  (op == 0xC4#8 || op == 0xC5#8) && md == 3 ||
  op == 0x8F#8 && reg != 0 ||
  (op == 0xC6#8 || op == 0xC7#8) && reg != 0 ||
  (0xD0#8 ≤ op && op ≤ 0xD3#8) && reg == 6 ||
  (op == 0xF6#8 || op == 0xF7#8) && reg == 1 ||
  op == 0xFE#8 && 2 ≤ reg ||
  op == 0xFF#8 && reg == 7 ||
  op == 0xFF#8 && (reg == 3 || reg == 5) && md == 3 ||
  lvl == .i80186 && op == 0x62#8 && md == 3 ||
  lvl == .i80186 && (op == 0xC0#8 || op == 0xC1#8) && reg == 6

/-- The instruction is in the table at the `ISA_LEVEL` (R105), with operands some bytes encode. -/
def Instr.wf (lvl : IsaLevel) : Instr → Bool
  | .movRmReg f => f.wf
  | .movRmImm f => f.wf
  | .movRegImm _ => true
  | .movMoffs _ => true
  | .movRmSreg x _ => x.wf
  | .movSregRm sr x => sr != .cs && x.wf
  | .pushReg _ => true
  | .pushRm x => x.wf
  | .pushSreg _ => true
  | .popReg _ => true
  | .popRm x => x.wf
  | .popSreg sr => sr != .cs
  | .xchgRm f => f.wf
  | .xchgAx r => r != .ax
  | .inPort _ => true
  | .outPort _ => true
  | .xlat => true
  | .lea _ m => m.wf
  | .lds _ m => m.wf
  | .les _ m => m.wf
  | .lahf => true
  | .sahf => true
  | .pushf => true
  | .popf => true
  | .add f => f.wf
  | .adc f => f.wf
  | .sub f => f.wf
  | .sbb f => f.wf
  | .cmp f => f.wf
  | .inc f => f.wf
  | .dec f => f.wf
  | .neg f => f.wf
  | .mul f => f.wf
  | .imul f => f.wf
  | .div f => f.wf
  | .idiv f => f.wf
  | .daa => true
  | .das => true
  | .aaa => true
  | .aas => true
  | .aam _ => true
  | .aad _ => true
  | .cbw => true
  | .cwd => true
  | .and f => f.wf
  | .or f => f.wf
  | .xor f => f.wf
  | .test f => f.wf
  | .not f => f.wf
  | .shl f => f.wf lvl
  | .shr f => f.wf lvl
  | .sar f => f.wf lvl
  | .rol f => f.wf lvl
  | .ror f => f.wf lvl
  | .rcl f => f.wf lvl
  | .rcr f => f.wf lvl
  | .movsb => true
  | .movsw => true
  | .cmpsb => true
  | .cmpsw => true
  | .scasb => true
  | .scasw => true
  | .lodsb => true
  | .lodsw => true
  | .stosb => true
  | .stosw => true
  | .jmpShort _ => true
  | .jmpNear _ => true
  | .jmpRm x => x.wf
  | .jmpFar _ _ => true
  | .jmpMemFar m => m.wf
  | .callNear _ => true
  | .callRm x => x.wf
  | .callFar _ _ => true
  | .callMemFar m => m.wf
  | .ret => true
  | .retImm _ => true
  | .retf => true
  | .retfImm _ => true
  | .jo _ => true
  | .jno _ => true
  | .jb _ => true
  | .jae _ => true
  | .je _ => true
  | .jne _ => true
  | .jbe _ => true
  | .ja _ => true
  | .js _ => true
  | .jns _ => true
  | .jp _ => true
  | .jnp _ => true
  | .jl _ => true
  | .jge _ => true
  | .jle _ => true
  | .jg _ => true
  | .loop _ => true
  | .loopz _ => true
  | .loopnz _ => true
  | .jcxz _ => true
  | .int _ => true
  | .int3 => true
  | .into => true
  | .iret => true
  | .clc => true
  | .stc => true
  | .cmc => true
  | .cld => true
  | .std => true
  | .cli => true
  | .sti => true
  | .hlt => true
  | .wait => true
  | .nop => true
  | .esc _ _ x => x.wf
  | .segEs => true
  | .segCs => true
  | .segSs => true
  | .segDs => true
  | .lock => true
  | .repne => true
  | .rep => true
  | .pusha => lvl == .i80186
  | .popa => lvl == .i80186
  | .bound _ m => lvl == .i80186 && m.wf
  | .pushImm16 _ => lvl == .i80186
  | .pushImm8 _ => lvl == .i80186
  | .imulImm16 _ x _ => lvl == .i80186 && x.wf
  | .imulImm8 _ x _ => lvl == .i80186 && x.wf
  | .insb => lvl == .i80186
  | .insw => lvl == .i80186
  | .outsb => lvl == .i80186
  | .outsw => lvl == .i80186
  | .enter _ _ => lvl == .i80186
  | .leave => lvl == .i80186
  | .unrecognized op => isUnrecognized lvl op
  | .decodeFault op m => isDecodeFault lvl op m

end Sys2Proof
end

