-- ==== Sys2Proof/Decode.lean ====
section
/-! DEFINITION. Bytes to instructions and back, from the encoding tables of `30_encoding.md`. `decode` is total on any
bytes: it reads them through a function from the position in the instruction to the byte there, so it reads only the
bytes the instruction has, and it rejects by name: an unrecognized opcode byte and a faulting ModRM byte are the fault rows
of the table, `Instr.unrecognized` and `Instr.decodeFault`. A prefix byte is one byte long and decodes to its own row: the
driver collects them (R142). `encode` is written from the same tables. -/

namespace Sys2Proof

/-! ## Bytes and words (R66, R101) -/

/-- A word from its two bytes, low byte first: `b1 ++ b0` (R101). -/
def wordOf (lo hi : Byte) : Word := hi ++ lo

/-- Bits 7:0. -/
def loByte (v : Word) : Byte := v.extractLsb' 0 8

/-- Bits 15:8. -/
def hiByte (v : Word) : Byte := v.extractLsb' 8 8

/-- A word as the two bytes an instruction stores for it, low byte first (R66). -/
def wordBytes (v : Word) : List Byte := [loByte v, hiByte v]

/-- `sext_16` of a byte (R9). -/
def sext16 (b : Byte) : Word := b.signExtend 16

/-- `zext_16` of a byte (R9). -/
def zext16 (b : Byte) : Word := b.setWidth 16

/-! ## Register numbers (R22, R23, R26, R97) -/

def Reg16.ofBits (i : BitVec 3) : Reg16 :=
  match i.toNat with
  | 0 => .ax | 1 => .cx | 2 => .dx | 3 => .bx | 4 => .sp | 5 => .bp | 6 => .si | _ => .di

def Reg16.bits : Reg16 → BitVec 3
  | .ax => 0#3 | .cx => 1#3 | .dx => 2#3 | .bx => 3#3 | .sp => 4#3 | .bp => 5#3 | .si => 6#3 | .di => 7#3

def Reg8.ofBits (i : BitVec 3) : Reg8 :=
  match i.toNat with
  | 0 => .al | 1 => .cl | 2 => .dl | 3 => .bl | 4 => .ah | 5 => .ch | 6 => .dh | _ => .bh

def Reg8.bits : Reg8 → BitVec 3
  | .al => 0#3 | .cl => 1#3 | .dl => 2#3 | .bl => 3#3 | .ah => 4#3 | .ch => 5#3 | .dh => 6#3 | .bh => 7#3

/-- The segment register of the number; 4 to 7 name none (R99 b). -/
def SReg.ofBits (i : BitVec 3) : Option SReg :=
  match i.toNat with
  | 0 => some .es | 1 => some .cs | 2 => some .ss | 3 => some .ds | _ => none

def SReg.bits : SReg → BitVec 3
  | .es => 0#3 | .cs => 1#3 | .ss => 2#3 | .ds => 3#3

def Base.ofBits (i : BitVec 3) : Base :=
  match i.toNat with
  | 0 => .bxSi | 1 => .bxDi | 2 => .bpSi | 3 => .bpDi | 4 => .si | 5 => .di | 6 => .bp | _ => .bx

def Base.bits : Base → BitVec 3
  | .bxSi => 0#3 | .bxDi => 1#3 | .bpSi => 2#3 | .bpDi => 3#3 | .si => 4#3 | .di => 5#3 | .bp => 6#3 | .bx => 7#3

/-! ## The ModRM byte (R95, R96) -/

/-- `mod`, bits 7:6. -/
def modOf (m : Byte) : BitVec 2 := m.extractLsb' 6 2
/-- `reg`, bits 5:3. -/
def regOf (m : Byte) : BitVec 3 := m.extractLsb' 3 3
/-- `rm`, bits 2:0. -/
def rmOf (m : Byte) : BitVec 3 := m.extractLsb' 0 3

/-- The ModRM byte of its three fields. -/
def modRM (md : BitVec 2) (reg rm : BitVec 3) : Byte := md ++ reg ++ rm

/-- The memory operand of `mod` 0, 1 or 2, and how many displacement bytes it has; `b k` is the `k`-th byte after the ModRM
byte (R96 to R98, R162, R163). -/
def decodeMem (md : BitVec 2) (rm : BitVec 3) (b : Nat → Byte) : MemOp × Nat :=
  match md.toNat with
  | 0 => if rm = 6#3 then (.direct (wordOf (b 0) (b 1)), 2) else (.based (Base.ofBits rm) .none, 0)
  | 1 => (.based (Base.ofBits rm) (.disp8 (b 0)), 1)
  | _ => (.based (Base.ofBits rm) (.disp16 (wordOf (b 0) (b 1))), 2)

/-- The register-or-memory operand of a ModRM byte, and how many displacement bytes it has (R96, R160). -/
def decodeRM {ρ : Type} (ofBits : BitVec 3 → ρ) (m : Byte) (b : Nat → Byte) : RM ρ × Nat :=
  if modOf m = 3#2 then (.reg (ofBits (rmOf m)), 0)
  else
    let x := decodeMem (modOf m) (rmOf m) b
    (.mem x.1, x.2)

/-! ## The dispatch table (R37, section 6 of 30_encoding.md) -/

/-- What follows the ModRM byte, once `reg` is known (R99, R119): a decode fault, an operand that must be memory, or an
`r/m` operand with its displacement and then the immediate. -/
inductive Sub
  | fault
  | mem (f : MemOp → Instr)
  | rm8 (f : RM8 → Instr)
  | rm16 (f : RM16 → Instr)
  | rm8Imm8 (f : RM8 → Byte → Instr)
  | rm16Imm8 (f : RM16 → Byte → Instr)
  | rm16Imm16 (f : RM16 → Word → Instr)

/-- What an opcode byte's entry says follows it (R103, R105). -/
inductive Entry
  | op (i : Instr)
  | imm8 (f : Byte → Instr)
  | imm16 (f : Word → Instr)
  | imm16Imm8 (f : Word → Byte → Instr)
  | ptr (f : Word → Word → Instr)
  | modrm (g : BitVec 3 → Sub)

/-- The six ALU entries of operation `8o` and the two other entries of its row of eight (R106). -/
def aluRow (mk : AluForm → Instr) (six seven : Entry) (k : BitVec 3) : Entry :=
  match k.toNat with
  | 0 => .modrm fun r => .rm8 fun x => mk (.rm8Reg8 x (Reg8.ofBits r))
  | 1 => .modrm fun r => .rm16 fun x => mk (.rm16Reg16 x (Reg16.ofBits r))
  | 2 => .modrm fun r => .rm8 fun x => mk (.reg8Rm8 (Reg8.ofBits r) x)
  | 3 => .modrm fun r => .rm16 fun x => mk (.reg16Rm16 (Reg16.ofBits r) x)
  | 4 => .imm8 fun i => mk (.alImm8 i)
  | 5 => .imm16 fun i => mk (.axImm16 i)
  | 6 => six
  | _ => seven

/-- The operation of an immediate-group `reg` value, in the source's order (R119). -/
def group1 (r : BitVec 3) : AluForm → Instr :=
  match r.toNat with
  | 0 => .add | 1 => .or | 2 => .adc | 3 => .sbb | 4 => .and | 5 => .sub | 6 => .xor | _ => .cmp

/-- The operation of a shift-group `reg` value; 6 names none (R119, R330). -/
def shiftGroup (r : BitVec 3) : Option (ShiftForm → Instr) :=
  match r.toNat with
  | 0 => some .rol | 1 => some .ror | 2 => some .rcl | 3 => some .rcr | 4 => some .shl | 5 => some .shr
  | 6 => none | _ => some .sar

/-- A shift-group entry: `sub` makes the rest from the operation. -/
def shiftEntry (sub : (ShiftForm → Instr) → Sub) : Entry :=
  .modrm fun r => match shiftGroup r with
    | some mk => sub mk
    | none => .fault

/-- A group of which only `reg` 0 is a member (8Fh, C6h, C7h: R119). -/
def onlyReg0 (sub : Sub) : Entry := .modrm fun r => if r = 0#3 then sub else .fault

/-- An entry of the 80186 level, unrecognized at the 8086 level (R108, R114, R121). -/
def level186 (lvl : IsaLevel) (op : Byte) (e : Entry) : Entry :=
  match lvl with
  | .i8086 => .op (.unrecognized op)
  | .i80186 => e

/-- Opcodes 60h to 67h (R108). -/
def row60 (lvl : IsaLevel) (op : Byte) (k : BitVec 3) : Entry :=
  match k.toNat with
  | 0 => level186 lvl op (.op .pusha)
  | 1 => level186 lvl op (.op .popa)
  | 2 => level186 lvl op (.modrm fun r => .mem fun m => .bound (Reg16.ofBits r) m)
  | _ => .op (.unrecognized op)

/-- Opcodes 68h to 6Fh (R108). -/
def row68 (lvl : IsaLevel) (op : Byte) (k : BitVec 3) : Entry :=
  level186 lvl op <| match k.toNat with
  | 0 => .imm16 .pushImm16
  | 1 => .modrm fun r => .rm16Imm16 fun x i => .imulImm16 (Reg16.ofBits r) x i
  | 2 => .imm8 .pushImm8
  | 3 => .modrm fun r => .rm16Imm8 fun x i => .imulImm8 (Reg16.ofBits r) x i
  | 4 => .op .insb
  | 5 => .op .insw
  | 6 => .op .outsb
  | _ => .op .outsw

/-- Opcodes 70h to 77h (R109, R404). -/
def row70 (k : BitVec 3) : Entry :=
  .imm8 <| match k.toNat with
  | 0 => .jo | 1 => .jno | 2 => .jb | 3 => .jae | 4 => .je | 5 => .jne | 6 => .jbe | _ => .ja

/-- Opcodes 78h to 7Fh (R109, R404). -/
def row78 (k : BitVec 3) : Entry :=
  .imm8 <| match k.toNat with
  | 0 => .js | 1 => .jns | 2 => .jp | 3 => .jnp | 4 => .jl | 5 => .jge | 6 => .jle | _ => .jg

/-- Opcodes 80h to 87h (R110). -/
def row80 (k : BitVec 3) : Entry :=
  match k.toNat with
  | 0 => .modrm fun r => .rm8Imm8 fun x i => group1 r (.rm8Imm8 x i)
  | 1 => .modrm fun r => .rm16Imm16 fun x i => group1 r (.rm16Imm16 x i)
  | 2 => .modrm fun r => .rm8Imm8 fun x i => group1 r (.rm8Imm8Alias x i)
  | 3 => .modrm fun r => .rm16Imm8 fun x i => group1 r (.rm16Imm8 x i)
  | 4 => .modrm fun r => .rm8 fun x => .test (.rm8Reg8 x (Reg8.ofBits r))
  | 5 => .modrm fun r => .rm16 fun x => .test (.rm16Reg16 x (Reg16.ofBits r))
  | 6 => .modrm fun r => .rm8 fun x => .xchgRm (.reg8Rm8 (Reg8.ofBits r) x)
  | _ => .modrm fun r => .rm16 fun x => .xchgRm (.reg16Rm16 (Reg16.ofBits r) x)

/-- Opcodes 88h to 8Fh (R110). -/
def row88 (k : BitVec 3) : Entry :=
  match k.toNat with
  | 0 => .modrm fun r => .rm8 fun x => .movRmReg (.rm8Reg8 x (Reg8.ofBits r))
  | 1 => .modrm fun r => .rm16 fun x => .movRmReg (.rm16Reg16 x (Reg16.ofBits r))
  | 2 => .modrm fun r => .rm8 fun x => .movRmReg (.reg8Rm8 (Reg8.ofBits r) x)
  | 3 => .modrm fun r => .rm16 fun x => .movRmReg (.reg16Rm16 (Reg16.ofBits r) x)
  | 4 => .modrm fun r => match SReg.ofBits r with
      | some sr => .rm16 fun x => .movRmSreg x sr
      | none => .fault
  | 5 => .modrm fun r => .mem fun m => .lea (Reg16.ofBits r) m
  | 6 => .modrm fun r => match SReg.ofBits r with
      | some sr => if sr = .cs then .fault else .rm16 fun x => .movSregRm sr x
      | none => .fault
  | _ => onlyReg0 (.rm16 .popRm)

/-- Opcodes 90h to 97h (R111): 90h is NOP. -/
def row90 (k : BitVec 3) : Entry :=
  if k = 0#3 then .op .nop else .op (.xchgAx (Reg16.ofBits k))

/-- Opcodes 98h to 9Fh (R111). -/
def row98 (k : BitVec 3) : Entry :=
  match k.toNat with
  | 0 => .op .cbw
  | 1 => .op .cwd
  | 2 => .ptr .callFar
  | 3 => .op .wait
  | 4 => .op .pushf
  | 5 => .op .popf
  | 6 => .op .sahf
  | _ => .op .lahf

/-- Opcodes A0h to A7h (R112). -/
def rowA0 (k : BitVec 3) : Entry :=
  match k.toNat with
  | 0 => .imm16 fun o => .movMoffs (.alMoffs o)
  | 1 => .imm16 fun o => .movMoffs (.axMoffs o)
  | 2 => .imm16 fun o => .movMoffs (.moffsAl o)
  | 3 => .imm16 fun o => .movMoffs (.moffsAx o)
  | 4 => .op .movsb
  | 5 => .op .movsw
  | 6 => .op .cmpsb
  | _ => .op .cmpsw

/-- Opcodes A8h to AFh (R112). -/
def rowA8 (k : BitVec 3) : Entry :=
  match k.toNat with
  | 0 => .imm8 fun i => .test (.alImm8 i)
  | 1 => .imm16 fun i => .test (.axImm16 i)
  | 2 => .op .stosb
  | 3 => .op .stosw
  | 4 => .op .lodsb
  | 5 => .op .lodsw
  | 6 => .op .scasb
  | _ => .op .scasw

/-- Opcodes C0h to C7h (R114). -/
def rowC0 (lvl : IsaLevel) (op : Byte) (k : BitVec 3) : Entry :=
  match k.toNat with
  | 0 => level186 lvl op (shiftEntry fun mk => .rm8Imm8 fun x i => mk (.rm8Imm x i))
  | 1 => level186 lvl op (shiftEntry fun mk => .rm16Imm8 fun x i => mk (.rm16Imm x i))
  | 2 => .imm16 .retImm
  | 3 => .op .ret
  | 4 => .modrm fun r => .mem fun m => .les (Reg16.ofBits r) m
  | 5 => .modrm fun r => .mem fun m => .lds (Reg16.ofBits r) m
  | 6 => onlyReg0 (.rm8Imm8 fun x i => .movRmImm (.rm8Imm8 x i))
  | _ => onlyReg0 (.rm16Imm16 fun x i => .movRmImm (.rm16Imm16 x i))

/-- Opcodes C8h to CFh (R114). -/
def rowC8 (lvl : IsaLevel) (op : Byte) (k : BitVec 3) : Entry :=
  match k.toNat with
  | 0 => level186 lvl op (.imm16Imm8 .enter)
  | 1 => level186 lvl op (.op .leave)
  | 2 => .imm16 .retfImm
  | 3 => .op .retf
  | 4 => .op .int3
  | 5 => .imm8 .int
  | 6 => .op .into
  | _ => .op .iret

/-- Opcodes D0h to D7h (R115). -/
def rowD0 (op : Byte) (k : BitVec 3) : Entry :=
  match k.toNat with
  | 0 => shiftEntry fun mk => .rm8 fun x => mk (.rm8One x)
  | 1 => shiftEntry fun mk => .rm16 fun x => mk (.rm16One x)
  | 2 => shiftEntry fun mk => .rm8 fun x => mk (.rm8Cl x)
  | 3 => shiftEntry fun mk => .rm16 fun x => mk (.rm16Cl x)
  | 4 => .imm8 .aam
  | 5 => .imm8 .aad
  | 6 => .op (.unrecognized op)
  | _ => .op .xlat

/-- Opcodes E0h to E7h (R116). -/
def rowE0 (k : BitVec 3) : Entry :=
  match k.toNat with
  | 0 => .imm8 .loopnz
  | 1 => .imm8 .loopz
  | 2 => .imm8 .loop
  | 3 => .imm8 .jcxz
  | 4 => .imm8 fun p => .inPort (.byteImm p)
  | 5 => .imm8 fun p => .inPort (.wordImm p)
  | 6 => .imm8 fun p => .outPort (.byteImm p)
  | _ => .imm8 fun p => .outPort (.wordImm p)

/-- Opcodes E8h to EFh (R116). -/
def rowE8 (k : BitVec 3) : Entry :=
  match k.toNat with
  | 0 => .imm16 .callNear
  | 1 => .imm16 .jmpNear
  | 2 => .ptr .jmpFar
  | 3 => .imm8 .jmpShort
  | 4 => .op (.inPort .byteDx)
  | 5 => .op (.inPort .wordDx)
  | 6 => .op (.outPort .byteDx)
  | _ => .op (.outPort .wordDx)

/-- The unary group F6h (R119): only TEST has an immediate (R103). -/
def groupF6 (r : BitVec 3) : Sub :=
  match r.toNat with
  | 0 => .rm8Imm8 fun x i => .test (.rm8Imm8 x i)
  | 1 => .fault
  | 2 => .rm8 fun x => .not (.rm8 x)
  | 3 => .rm8 fun x => .neg (.rm8 x)
  | 4 => .rm8 fun x => .mul (.rm8 x)
  | 5 => .rm8 fun x => .imul (.rm8 x)
  | 6 => .rm8 fun x => .div (.rm8 x)
  | _ => .rm8 fun x => .idiv (.rm8 x)

/-- The unary group F7h (R119). -/
def groupF7 (r : BitVec 3) : Sub :=
  match r.toNat with
  | 0 => .rm16Imm16 fun x i => .test (.rm16Imm16 x i)
  | 1 => .fault
  | 2 => .rm16 fun x => .not (.rm16 x)
  | 3 => .rm16 fun x => .neg (.rm16 x)
  | 4 => .rm16 fun x => .mul (.rm16 x)
  | 5 => .rm16 fun x => .imul (.rm16 x)
  | 6 => .rm16 fun x => .div (.rm16 x)
  | _ => .rm16 fun x => .idiv (.rm16 x)

/-- The group FEh (R119). -/
def groupFE (r : BitVec 3) : Sub :=
  match r.toNat with
  | 0 => .rm8 fun x => .inc (.rm8 x)
  | 1 => .rm8 fun x => .dec (.rm8 x)
  | _ => .fault

/-- The group FFh (R119). -/
def groupFF (r : BitVec 3) : Sub :=
  match r.toNat with
  | 0 => .rm16 fun x => .inc (.rm16 x)
  | 1 => .rm16 fun x => .dec (.rm16 x)
  | 2 => .rm16 .callRm
  | 3 => .mem .callMemFar
  | 4 => .rm16 .jmpRm
  | 5 => .mem .jmpMemFar
  | 6 => .rm16 .pushRm
  | _ => .fault

/-- Opcodes F0h to F7h (R117). -/
def rowF0 (op : Byte) (k : BitVec 3) : Entry :=
  match k.toNat with
  | 0 => .op .lock
  | 1 => .op (.unrecognized op)
  | 2 => .op .repne
  | 3 => .op .rep
  | 4 => .op .hlt
  | 5 => .op .cmc
  | 6 => .modrm groupF6
  | _ => .modrm groupF7

/-- Opcodes F8h to FFh (R117). -/
def rowF8 (k : BitVec 3) : Entry :=
  match k.toNat with
  | 0 => .op .clc
  | 1 => .op .stc
  | 2 => .op .cli
  | 3 => .op .sti
  | 4 => .op .cld
  | 5 => .op .std
  | 6 => .modrm groupFE
  | _ => .modrm groupFF

/-- Bits 7:3 of an opcode byte: which row of eight opcodes it is in. -/
def rowOf (op : Byte) : BitVec 5 := op.extractLsb' 3 5

/-- The opcode map (R106 to R117): the 256 entries, eight to a row. -/
def opcodeEntry (lvl : IsaLevel) (op : Byte) : Entry :=
  let k := rmOf op
  match (rowOf op).toNat with
  | 0x00 => aluRow .add (.op (.pushSreg .es)) (.op (.popSreg .es)) k
  | 0x01 => aluRow .or (.op (.pushSreg .cs)) (.op (.unrecognized op)) k
  | 0x02 => aluRow .adc (.op (.pushSreg .ss)) (.op (.popSreg .ss)) k
  | 0x03 => aluRow .sbb (.op (.pushSreg .ds)) (.op (.popSreg .ds)) k
  | 0x04 => aluRow .and (.op .segEs) (.op .daa) k
  | 0x05 => aluRow .sub (.op .segCs) (.op .das) k
  | 0x06 => aluRow .xor (.op .segSs) (.op .aaa) k
  | 0x07 => aluRow .cmp (.op .segDs) (.op .aas) k
  | 0x08 => .op (.inc (.reg16 (Reg16.ofBits k)))
  | 0x09 => .op (.dec (.reg16 (Reg16.ofBits k)))
  | 0x0A => .op (.pushReg (Reg16.ofBits k))
  | 0x0B => .op (.popReg (Reg16.ofBits k))
  | 0x0C => row60 lvl op k
  | 0x0D => row68 lvl op k
  | 0x0E => row70 k
  | 0x0F => row78 k
  | 0x10 => row80 k
  | 0x11 => row88 k
  | 0x12 => row90 k
  | 0x13 => row98 k
  | 0x14 => rowA0 k
  | 0x15 => rowA8 k
  | 0x16 => .imm8 fun i => .movRegImm (.reg8Imm8 (Reg8.ofBits k) i)
  | 0x17 => .imm16 fun i => .movRegImm (.reg16Imm16 (Reg16.ofBits k) i)
  | 0x18 => rowC0 lvl op k
  | 0x19 => rowC8 lvl op k
  | 0x1A => rowD0 op k
  | 0x1B => .modrm fun r => .rm16 fun x => .esc k r x
  | 0x1C => rowE0 k
  | 0x1D => rowE8 k
  | 0x1E => rowF0 op k
  | _ => rowF8 k

/-- The rest of an instruction with a ModRM byte `m`; `b k` is the `k`-th byte after it. A decode fault is found from the
ModRM byte alone and consumes no more bytes (R123, R150). The displacement comes before the immediate (R102). -/
def decodeSub (op m : Byte) (sub : Sub) (b : Nat → Byte) : Instr × Nat :=
  match sub with
  | .fault => (.decodeFault op m, 2)
  | .mem f =>
    if modOf m = 3#2 then (.decodeFault op m, 2)
    else
      let x := decodeMem (modOf m) (rmOf m) b
      (f x.1, 2 + x.2)
  | .rm8 f =>
    let x := decodeRM Reg8.ofBits m b
    (f x.1, 2 + x.2)
  | .rm16 f =>
    let x := decodeRM Reg16.ofBits m b
    (f x.1, 2 + x.2)
  | .rm8Imm8 f =>
    let x := decodeRM Reg8.ofBits m b
    (f x.1 (b x.2), 3 + x.2)
  | .rm16Imm8 f =>
    let x := decodeRM Reg16.ofBits m b
    (f x.1 (b x.2), 3 + x.2)
  | .rm16Imm16 f =>
    let x := decodeRM Reg16.ofBits m b
    (f x.1 (wordOf (b x.2) (b (x.2 + 1))), 4 + x.2)

/-- The instruction whose bytes are `b 0`, `b 1`, ..., and its length in bytes (R90, R103). -/
def decode (lvl : IsaLevel) (b : Nat → Byte) : Instr × Nat :=
  match opcodeEntry lvl (b 0) with
  | .op i => (i, 1)
  | .imm8 f => (f (b 1), 2)
  | .imm16 f => (f (wordOf (b 1) (b 2)), 3)
  | .imm16Imm8 f => (f (wordOf (b 1) (b 2)) (b 3), 4)
  | .ptr f => (f (wordOf (b 1) (b 2)) (wordOf (b 3) (b 4)), 5)
  | .modrm g => decodeSub (b 0) (b 1) (g (regOf (b 1))) fun k => b (k + 2)

/-- The bytes of a list as `decode` reads them: zeros after its end. -/
def byteAt (l : List Byte) (k : Nat) : Byte := l.getD k 0#8

/-- The seven prefix bytes (R104): recorded by the driver before dispatch (R142). -/
def Instr.isPrefix : Instr → Bool
  | .segEs | .segCs | .segSs | .segDs | .lock | .repne | .rep => true
  | _ => false

/-! ## The encoder -/

/-- The displacement bytes of a memory operand (R96). -/
def Disp.bytes : Disp → List Byte
  | .none => []
  | .disp8 d => [d]
  | .disp16 d => wordBytes d

/-- The `mod` field of a displacement (R96). -/
def Disp.modBits : Disp → BitVec 2
  | .none => 0#2
  | .disp8 _ => 1#2
  | .disp16 _ => 2#2

/-- The ModRM byte and displacement of a memory operand (R96 to R98). -/
def MemOp.encode (reg : BitVec 3) : MemOp → List Byte
  | .direct off => modRM 0#2 reg 6#3 :: wordBytes off
  | .based b d => modRM d.modBits reg b.bits :: d.bytes

/-- The ModRM byte and displacement of a byte operand. -/
def encodeRM8 (reg : BitVec 3) : RM8 → List Byte
  | .reg r => [modRM 3#2 reg r.bits]
  | .mem m => m.encode reg

/-- The ModRM byte and displacement of a word operand. -/
def encodeRM16 (reg : BitVec 3) : RM16 → List Byte
  | .reg r => [modRM 3#2 reg r.bits]
  | .mem m => m.encode reg

/-- An opcode byte whose low three bits are a register number (R91). -/
def opReg (op : Byte) (r : BitVec 3) : Byte := op + r.setWidth 8

/-- The opcode byte of form `k` of ALU operation number `o`: `8*o + k` (R106). -/
def aluOp (o : BitVec 3) (k : Byte) : Byte := (o.setWidth 8 <<< 3) + k

/-- The ten encodings of ALU operation number `o` (R266). -/
def encodeAlu (o : BitVec 3) : AluForm → List Byte
  | .rm8Reg8 x r => aluOp o 0#8 :: encodeRM8 r.bits x
  | .rm16Reg16 x r => aluOp o 1#8 :: encodeRM16 r.bits x
  | .reg8Rm8 r x => aluOp o 2#8 :: encodeRM8 r.bits x
  | .reg16Rm16 r x => aluOp o 3#8 :: encodeRM16 r.bits x
  | .alImm8 i => [aluOp o 4#8, i]
  | .axImm16 i => aluOp o 5#8 :: wordBytes i
  | .rm8Imm8 x i => 0x80#8 :: encodeRM8 o x ++ [i]
  | .rm16Imm16 x i => 0x81#8 :: encodeRM16 o x ++ wordBytes i
  | .rm8Imm8Alias x i => 0x82#8 :: encodeRM8 o x ++ [i]
  | .rm16Imm8 x i => 0x83#8 :: encodeRM16 o x ++ [i]

/-- The encodings of shift-group member `n` (R330, R490). -/
def encodeShift (n : BitVec 3) : ShiftForm → List Byte
  | .rm8One x => 0xD0#8 :: encodeRM8 n x
  | .rm16One x => 0xD1#8 :: encodeRM16 n x
  | .rm8Cl x => 0xD2#8 :: encodeRM8 n x
  | .rm16Cl x => 0xD3#8 :: encodeRM16 n x
  | .rm8Imm x i => 0xC0#8 :: encodeRM8 n x ++ [i]
  | .rm16Imm x i => 0xC1#8 :: encodeRM16 n x ++ [i]

/-- The encodings of unary-group member `n` (R119). -/
def encodeUnary (n : BitVec 3) : UnaryForm → List Byte
  | .rm8 x => 0xF6#8 :: encodeRM8 n x
  | .rm16 x => 0xF7#8 :: encodeRM16 n x

/-- The bytes of an instruction, prefixes apart, in ascending order of offset (R90). -/
def encode : Instr → List Byte
  | .movRmReg (.rm8Reg8 x r) => 0x88#8 :: encodeRM8 r.bits x
  | .movRmReg (.rm16Reg16 x r) => 0x89#8 :: encodeRM16 r.bits x
  | .movRmReg (.reg8Rm8 r x) => 0x8A#8 :: encodeRM8 r.bits x
  | .movRmReg (.reg16Rm16 r x) => 0x8B#8 :: encodeRM16 r.bits x
  | .movRmImm (.rm8Imm8 x i) => 0xC6#8 :: encodeRM8 0#3 x ++ [i]
  | .movRmImm (.rm16Imm16 x i) => 0xC7#8 :: encodeRM16 0#3 x ++ wordBytes i
  | .movRegImm (.reg8Imm8 r i) => [opReg 0xB0#8 r.bits, i]
  | .movRegImm (.reg16Imm16 r i) => opReg 0xB8#8 r.bits :: wordBytes i
  | .movMoffs (.alMoffs o) => 0xA0#8 :: wordBytes o
  | .movMoffs (.axMoffs o) => 0xA1#8 :: wordBytes o
  | .movMoffs (.moffsAl o) => 0xA2#8 :: wordBytes o
  | .movMoffs (.moffsAx o) => 0xA3#8 :: wordBytes o
  | .movRmSreg x sr => 0x8C#8 :: encodeRM16 sr.bits x
  | .movSregRm sr x => 0x8E#8 :: encodeRM16 sr.bits x
  | .pushReg r => [opReg 0x50#8 r.bits]
  | .pushRm x => 0xFF#8 :: encodeRM16 6#3 x
  | .pushSreg sr => [0x06#8 + (sr.bits.setWidth 8 <<< 3)]
  | .popReg r => [opReg 0x58#8 r.bits]
  | .popRm x => 0x8F#8 :: encodeRM16 0#3 x
  | .popSreg sr => [0x07#8 + (sr.bits.setWidth 8 <<< 3)]
  | .xchgRm (.reg8Rm8 r x) => 0x86#8 :: encodeRM8 r.bits x
  | .xchgRm (.reg16Rm16 r x) => 0x87#8 :: encodeRM16 r.bits x
  | .xchgAx r => [opReg 0x90#8 r.bits]
  | .inPort (.byteImm p) => [0xE4#8, p]
  | .inPort (.wordImm p) => [0xE5#8, p]
  | .inPort .byteDx => [0xEC#8]
  | .inPort .wordDx => [0xED#8]
  | .outPort (.byteImm p) => [0xE6#8, p]
  | .outPort (.wordImm p) => [0xE7#8, p]
  | .outPort .byteDx => [0xEE#8]
  | .outPort .wordDx => [0xEF#8]
  | .xlat => [0xD7#8]
  | .lea r m => 0x8D#8 :: m.encode r.bits
  | .lds r m => 0xC5#8 :: m.encode r.bits
  | .les r m => 0xC4#8 :: m.encode r.bits
  | .lahf => [0x9F#8]
  | .sahf => [0x9E#8]
  | .pushf => [0x9C#8]
  | .popf => [0x9D#8]
  | .add f => encodeAlu 0#3 f
  | .or f => encodeAlu 1#3 f
  | .adc f => encodeAlu 2#3 f
  | .sbb f => encodeAlu 3#3 f
  | .and f => encodeAlu 4#3 f
  | .sub f => encodeAlu 5#3 f
  | .xor f => encodeAlu 6#3 f
  | .cmp f => encodeAlu 7#3 f
  | .inc (.reg16 r) => [opReg 0x40#8 r.bits]
  | .inc (.rm8 x) => 0xFE#8 :: encodeRM8 0#3 x
  | .inc (.rm16 x) => 0xFF#8 :: encodeRM16 0#3 x
  | .dec (.reg16 r) => [opReg 0x48#8 r.bits]
  | .dec (.rm8 x) => 0xFE#8 :: encodeRM8 1#3 x
  | .dec (.rm16 x) => 0xFF#8 :: encodeRM16 1#3 x
  | .not f => encodeUnary 2#3 f
  | .neg f => encodeUnary 3#3 f
  | .mul f => encodeUnary 4#3 f
  | .imul f => encodeUnary 5#3 f
  | .div f => encodeUnary 6#3 f
  | .idiv f => encodeUnary 7#3 f
  | .daa => [0x27#8]
  | .das => [0x2F#8]
  | .aaa => [0x37#8]
  | .aas => [0x3F#8]
  | .aam base => [0xD4#8, base]
  | .aad base => [0xD5#8, base]
  | .cbw => [0x98#8]
  | .cwd => [0x99#8]
  | .test (.rm8Reg8 x r) => 0x84#8 :: encodeRM8 r.bits x
  | .test (.rm16Reg16 x r) => 0x85#8 :: encodeRM16 r.bits x
  | .test (.alImm8 i) => [0xA8#8, i]
  | .test (.axImm16 i) => 0xA9#8 :: wordBytes i
  | .test (.rm8Imm8 x i) => 0xF6#8 :: encodeRM8 0#3 x ++ [i]
  | .test (.rm16Imm16 x i) => 0xF7#8 :: encodeRM16 0#3 x ++ wordBytes i
  | .rol f => encodeShift 0#3 f
  | .ror f => encodeShift 1#3 f
  | .rcl f => encodeShift 2#3 f
  | .rcr f => encodeShift 3#3 f
  | .shl f => encodeShift 4#3 f
  | .shr f => encodeShift 5#3 f
  | .sar f => encodeShift 7#3 f
  | .movsb => [0xA4#8]
  | .movsw => [0xA5#8]
  | .cmpsb => [0xA6#8]
  | .cmpsw => [0xA7#8]
  | .stosb => [0xAA#8]
  | .stosw => [0xAB#8]
  | .lodsb => [0xAC#8]
  | .lodsw => [0xAD#8]
  | .scasb => [0xAE#8]
  | .scasw => [0xAF#8]
  | .jmpShort d => [0xEB#8, d]
  | .jmpNear d => 0xE9#8 :: wordBytes d
  | .jmpRm x => 0xFF#8 :: encodeRM16 4#3 x
  | .jmpFar off sg => 0xEA#8 :: wordBytes off ++ wordBytes sg
  | .jmpMemFar m => 0xFF#8 :: m.encode 5#3
  | .callNear d => 0xE8#8 :: wordBytes d
  | .callRm x => 0xFF#8 :: encodeRM16 2#3 x
  | .callFar off sg => 0x9A#8 :: wordBytes off ++ wordBytes sg
  | .callMemFar m => 0xFF#8 :: m.encode 3#3
  | .ret => [0xC3#8]
  | .retImm k => 0xC2#8 :: wordBytes k
  | .retf => [0xCB#8]
  | .retfImm k => 0xCA#8 :: wordBytes k
  | .jo d => [0x70#8, d]
  | .jno d => [0x71#8, d]
  | .jb d => [0x72#8, d]
  | .jae d => [0x73#8, d]
  | .je d => [0x74#8, d]
  | .jne d => [0x75#8, d]
  | .jbe d => [0x76#8, d]
  | .ja d => [0x77#8, d]
  | .js d => [0x78#8, d]
  | .jns d => [0x79#8, d]
  | .jp d => [0x7A#8, d]
  | .jnp d => [0x7B#8, d]
  | .jl d => [0x7C#8, d]
  | .jge d => [0x7D#8, d]
  | .jle d => [0x7E#8, d]
  | .jg d => [0x7F#8, d]
  | .loopnz d => [0xE0#8, d]
  | .loopz d => [0xE1#8, d]
  | .loop d => [0xE2#8, d]
  | .jcxz d => [0xE3#8, d]
  | .int n => [0xCD#8, n]
  | .int3 => [0xCC#8]
  | .into => [0xCE#8]
  | .iret => [0xCF#8]
  | .clc => [0xF8#8]
  | .stc => [0xF9#8]
  | .cmc => [0xF5#8]
  | .cld => [0xFC#8]
  | .std => [0xFD#8]
  | .cli => [0xFA#8]
  | .sti => [0xFB#8]
  | .hlt => [0xF4#8]
  | .wait => [0x9B#8]
  | .nop => [0x90#8]
  | .esc n reg x => opReg 0xD8#8 n :: encodeRM16 reg x
  | .segEs => [0x26#8]
  | .segCs => [0x2E#8]
  | .segSs => [0x36#8]
  | .segDs => [0x3E#8]
  | .lock => [0xF0#8]
  | .repne => [0xF2#8]
  | .rep => [0xF3#8]
  | .pusha => [0x60#8]
  | .popa => [0x61#8]
  | .bound r m => 0x62#8 :: m.encode r.bits
  | .pushImm16 i => 0x68#8 :: wordBytes i
  | .imulImm16 r x i => 0x69#8 :: encodeRM16 r.bits x ++ wordBytes i
  | .pushImm8 i => [0x6A#8, i]
  | .imulImm8 r x i => 0x6B#8 :: encodeRM16 r.bits x ++ [i]
  | .insb => [0x6C#8]
  | .insw => [0x6D#8]
  | .outsb => [0x6E#8]
  | .outsw => [0x6F#8]
  | .enter size level => 0xC8#8 :: wordBytes size ++ [level]
  | .leave => [0xC9#8]
  | .unrecognized op => [op]
  | .decodeFault op m => [op, m]

/-! ## Words of the opcode table -/

/-- The bytes of a word `w` of `nbits` bits as `opcode_table.json` numbers them: the opcode byte is in the high eight bits
(bits 15:8 of the table's 16-bit pairs), the byte after it in the next eight (R105, log 11). -/
def tableBytes (nbits w : Nat) : List Byte :=
  (List.range (nbits / 8)).map fun k => BitVec.ofNat 8 (w >>> (8 * (nbits / 8 - 1 - k)))

/-- The `ISA_LEVEL` at which a word of the table is an instruction: 8086, but 80186 for a word whose opcode byte is
unrecognized at 8086 (R105, log 12). -/
def tableLevel (nbits w : Nat) : IsaLevel :=
  if isUnrecognized .i8086 (byteAt (tableBytes nbits w) 0) then .i80186 else .i8086

/-- The instruction the decoder reads from a word of the opcode table, zeros after it. -/
def decodeTableWord (nbits w : Nat) : Option Instr :=
  some (decode (tableLevel nbits w) (byteAt (tableBytes nbits w))).1

end Sys2Proof
end

