-- ==== Sys2Proof/Machine/State.lean ====
section
/-! DEFINITION. The state of one machine instance (R20 of `10_state.md`) as plain data, its reset (R42, R570), the reasons a
step can stop, and the uninterpreted effects of the environment's handlers (R526, R75 to R77). -/

namespace Sys2Proof.Machine

open Sys2Proof

/-- The four segment registers (R26). -/
structure SRegs where
  es : Word
  cs : Word
  ss : Word
  ds : Word
  deriving DecidableEq, Repr, Inhabited

/-- The nine flags, independent bits (R29): `iflag` is IF, `of` is OF. The fixed bits of the image are not state (R30). -/
structure Flags where
  cf    : Bool
  pf    : Bool
  af    : Bool
  zf    : Bool
  sf    : Bool
  tf    : Bool
  iflag : Bool
  df    : Bool
  of    : Bool
  deriving DecidableEq, Repr, Inhabited

/-- Prefix State (R32). -/
structure PrefixState where
  seg  : Option SReg
  rep  : Option RepKind
  lock : Bool
  deriving DecidableEq, Repr

/-- Prefix State at every instruction boundary (R32). -/
def PrefixState.empty : PrefixState := ⟨none, none, false⟩

/-- Driver state (R33). -/
inductive Driver
  | idle
  | fetchPrefixes
  | dispatch
  | fault
  | halted
  deriving DecidableEq, Repr

/-- A record of the diagnostic log (R38, D34): kind, CS, IP0, offending byte or number. The last two are the kind `Unmapped`
of `STRICT_DIAG` (R524). -/
inductive DiagRecord
  | decodeFault (cs ip0 : Word) (modrm : Byte)
  | unrecognizedOpcode (cs ip0 : Word) (op : Byte)
  | unmappedInterrupt (cs ip0 : Word) (n : Byte)
  | unmappedPort (cs ip0 : Word) (port : Word)
  deriving DecidableEq, Repr

/-- Memory: the listed addresses (20-bit, as numbers) with their bytes, rising, none of them what an unlisted address
reads as (`Memory.wf` in `Machine/Ops.lean`). -/
abbrev Memory := List Host.Cell

/-- The complete state (R20), the configuration it runs under (R8) and the model's own count of free values (R15). -/
structure State where
  /-- the eight general registers, R21 -/
  regs      : Regs
  /-- the four segment registers, R26 -/
  sregs     : SRegs
  /-- the instruction pointer, R27 -/
  ip        : Word
  /-- the nine flags, R29 -/
  flags     : Flags
  /-- Prefix State, R32 -/
  pfx       : PrefixState
  /-- driver state, R33 -/
  driver    : Driver
  /-- CS as recorded on leaving Idle, R141 -/
  cs0       : Word
  /-- IP0, R14, R141 -/
  ip0       : Word
  /-- the pending hardware interrupt slot, R34 -/
  pending   : Option Byte
  /-- the interrupt table: the vectors that have a handler, R35 -/
  intTable  : List (Nat × IntHandler)
  /-- the port table: the ports that have a handler, R36 -/
  portTable : List (Nat × PortEntry)
  /-- the diagnostic log, oldest record first, R38 -/
  diag      : List DiagRecord
  /-- memory, R39 -/
  mem       : Memory
  /-- the open parameters, R8 -/
  cfg       : Config
  /-- the model's own: how many free values have been used (log 4) -/
  draws     : Nat
  deriving DecidableEq, Repr

/-- Why the machine stops with a fault. -/
inductive Fault
  /-- All 65536 bytes of the code segment are prefix bytes, so the driver stays in FetchPrefixes for ever (R144, R584).
  Raised by `runPass` (`Machine/Driver.lean`) when 65536 prefix bytes in a row have been fetched. Safe: the spec gives such a
  run no later state. -/
  | endlessPrefixes
  deriving DecidableEq, Repr

/-- Why the machine gives an instruction no meaning. -/
inductive Refusal
  /-- An instruction whose arm of `exec` has no meaning. Raised by `exec` only; no arm of this model uses it. Safe. -/
  | notModelled (mnemonic : String)
  deriving DecidableEq, Repr

/-! ## What a handler of the environment did

A present handler's effect is an arbitrary function of the machine state and of `Env` (R526, R75, D32). `Env` is not state
of the CORE (R41); the count `draws`, which every call advances, stands for it, so that no two calls need agree. -/

/-- An access by a handler to a slot or a port with no handler, recorded under `STRICT_DIAG` (R524, R526). -/
inductive UnmappedAccess
  | interrupt (n : Byte)
  | port (p : Word)
  deriving DecidableEq, Repr, Inhabited

/-- What an interrupt handler of the environment may leave behind (R526): any general register, segment register, IP, flag,
memory byte and the pending slot. -/
structure IntEffect where
  regs     : Regs
  sregs    : SRegs
  ip       : Word
  flags    : Flags
  writes   : List (BitVec 20 × Byte)
  pending  : Option Byte
  unmapped : List UnmappedAccess
  deriving DecidableEq, Repr, Inhabited

/-- What a port handler of the environment may leave behind (R77, D32): memory bytes and the pending slot. -/
structure PortEffect where
  writes  : List (BitVec 20 × Byte)
  pending : Option Byte
  deriving DecidableEq, Repr, Inhabited

/-- The width of a port access (R12). -/
inductive PortWidth
  | byte
  | word
  deriving DecidableEq, Repr

/-- The effect of interrupt handler `id` called in a state: uninterpreted. DESIGN CHOICE (log 6), safe. -/
opaque hostInterrupt (id : Nat) (s : State) : IntEffect

/-- The value read handler `id` returns for a port and a width (a byte access uses bits 7:0), and its effect: uninterpreted.
DESIGN CHOICE (log 7), safe. -/
opaque hostPortRead (id : Nat) (port : Word) (n : PortWidth) (s : State) : Word × PortEffect

/-- The effect of write handler `id` for a port, a width and a value: uninterpreted. DESIGN CHOICE (log 7), safe. -/
opaque hostPortWrite (id : Nat) (port : Word) (n : PortWidth) (v : Word) (s : State) : PortEffect

/-! ## Reset -/

/-- All nine flags 0 (R42). -/
def Flags.zero : Flags := ⟨false, false, false, false, false, false, false, false, false⟩

/-- The machine at first boot under the parameters `cfg`, with memory content `memInit` (`MEM_INIT`): the table of R42. `cs0`
and `ip0` hold no record yet: DESIGN CHOICE 0 (log 5). `draws` is 0: DESIGN CHOICE (log 4). -/
def State.boot (cfg : Config) (memInit : Memory) : State where
  regs      := cfg.resetGpr
  sregs     := ⟨0x0000#16, 0xFFFF#16, 0x0000#16, 0x0000#16⟩
  ip        := 0x0000#16
  flags     := Flags.zero
  pfx       := PrefixState.empty
  driver    := .idle
  cs0       := 0#16
  ip0       := 0#16
  pending   := none
  intTable  := cfg.intTableInit
  portTable := cfg.portTableInit
  diag      := []
  mem       := memInit
  cfg       := cfg
  draws     := 0

/-- The machine right after reset with the default parameters and nothing listed in memory (R42, R570, log 2, log 3). -/
def State.reset : State := State.boot Config.default []

end Sys2Proof.Machine
end

