-- ==== Sys2Proof/Machine/Flags.lean ====
section
/-! DEFINITION. Every flag computation of the spec: the image (R30), the flag helper functions (R260 to R265), the products
and quotients (R278 to R281), the decimal adjusts (R282 to R287), and the shifts and rotates (R330 to R339). A computation
answers what becomes of each of the six status flags as a `FlagEffect`, in the terms of R31. -/

namespace Sys2Proof.Machine

open Sys2Proof

/-! ## The image of the flags (R30) -/

/-- `FlagsImage()`: `0xF002 | CF | PF<<2 | AF<<4 | ZF<<6 | SF<<7 | TF<<8 | IF<<9 | DF<<10 | OF<<11`. -/
def Flags.image (f : Flags) : Word :=
  0xF#4 ++ BitVec.ofBool f.of ++ BitVec.ofBool f.df ++ BitVec.ofBool f.iflag ++ BitVec.ofBool f.tf ++
  BitVec.ofBool f.sf ++ BitVec.ofBool f.zf ++ 0#1 ++ BitVec.ofBool f.af ++ 0#1 ++ BitVec.ofBool f.pf ++ 1#1 ++
  BitVec.ofBool f.cf

/-- `SetFlagsFromImage(v)`: the nine named bits, the others ignored. -/
def Flags.ofImage (v : Word) : Flags where
  cf    := v.getLsbD 0
  pf    := v.getLsbD 2
  af    := v.getLsbD 4
  zf    := v.getLsbD 6
  sf    := v.getLsbD 7
  tf    := v.getLsbD 8
  iflag := v.getLsbD 9
  df    := v.getLsbD 10
  of    := v.getLsbD 11

/-! ## What becomes of a flag (R31) -/

/-- What an instruction does to one flag: `-`, `M` (or a forced value), `U` of R31. -/
inductive FlagChange
  | keep
  | set (b : Bool)
  | undef
  deriving DecidableEq, Repr

/-- What an instruction does to the six status flags. -/
structure FlagEffect where
  cf : FlagChange
  pf : FlagChange
  af : FlagChange
  zf : FlagChange
  sf : FlagChange
  of : FlagChange
  deriving DecidableEq, Repr

/-- No status flag changes. -/
def FlagEffect.none : FlagEffect := ⟨.keep, .keep, .keep, .keep, .keep, .keep⟩

/-- All six are undefined (R280, R281, R529). -/
def FlagEffect.allUndef : FlagEffect := ⟨.undef, .undef, .undef, .undef, .undef, .undef⟩

/-- The new value of a flag whose old value is `old`, an undefined one being free bit `d` (R15). -/
def FlagChange.apply (c : FlagChange) (old : Bool) (d : Nat) : Bool :=
  match c with
  | .keep  => old
  | .set b => b
  | .undef => Config.freeBit d

/-- How many free bits a change uses. -/
def FlagChange.cost : FlagChange → Nat
  | .undef => 1
  | _      => 0

/-- The flags after an effect, its undefined flags being free bits from number `d` on, each its own (R15). -/
def FlagEffect.apply (e : FlagEffect) (f : Flags) (d : Nat) : Flags :=
  { f with
    cf := e.cf.apply f.cf d
    pf := e.pf.apply f.pf (d + e.cf.cost)
    af := e.af.apply f.af (d + e.cf.cost + e.pf.cost)
    zf := e.zf.apply f.zf (d + e.cf.cost + e.pf.cost + e.af.cost)
    sf := e.sf.apply f.sf (d + e.cf.cost + e.pf.cost + e.af.cost + e.zf.cost)
    of := e.of.apply f.of (d + e.cf.cost + e.pf.cost + e.af.cost + e.zf.cost + e.sf.cost) }

/-- How many free bits an effect uses. -/
def FlagEffect.cost (e : FlagEffect) : Nat :=
  e.cf.cost + e.pf.cost + e.af.cost + e.zf.cost + e.sf.cost + e.of.cost

/-! ## Flag helper functions (R260 to R265) -/

/-- `Parity8(v)`: the number of 1 bits in `v[7:0]` is even (R260). -/
def parity8 {w : Nat} (v : BitVec w) : Bool :=
  (List.range 8).countP (fun i => v.getLsbD i) % 2 == 0

/-- `SetSZP_N(r)` on top of another effect (R261). -/
def setSZP {w : Nat} (r : BitVec w) (e : FlagEffect) : FlagEffect :=
  { e with zf := .set (r == 0), sf := .set r.msb, pf := .set (parity8 r) }

/-- `Add_N(a, b, c)` (R262). -/
def addN {w : Nat} (a b : BitVec w) (c : Bool) : BitVec w × FlagEffect :=
  let s := a.toNat + b.toNat + c.toNat
  let r := BitVec.ofNat w s
  (r, setSZP r { FlagEffect.none with
    cf := .set (decide (2 ^ w ≤ s))
    af := .set (decide (16 ≤ a.toNat % 16 + b.toNat % 16 + c.toNat))
    of := .set (a.msb == b.msb && r.msb != a.msb) })

/-- `Sub_N(a, b, c)` (R263). -/
def subN {w : Nat} (a b : BitVec w) (c : Bool) : BitVec w × FlagEffect :=
  let d : Int := (a.toNat : Int) - (b.toNat : Int) - (c.toNat : Int)
  let r := BitVec.ofInt w d
  (r, setSZP r { FlagEffect.none with
    cf := .set (decide (a.toNat < b.toNat + c.toNat))
    af := .set (decide (a.toNat % 16 < b.toNat % 16 + c.toNat))
    of := .set (a.msb != b.msb && r.msb != a.msb) })

/-- `Inc_N(a)`: as `Add_N(a, 1, 0)`, CF kept (R264). -/
def incN {w : Nat} (a : BitVec w) : BitVec w × FlagEffect :=
  let r := addN a 1 false
  (r.1, { r.2 with cf := .keep })

/-- `Dec_N(a)`: as `Sub_N(a, 1, 0)`, CF kept (R264). -/
def decN {w : Nat} (a : BitVec w) : BitVec w × FlagEffect :=
  let r := subN a 1 false
  (r.1, { r.2 with cf := .keep })

/-- `Logic_N(r)` (R265). -/
def logicN {w : Nat} (r : BitVec w) : FlagEffect :=
  setSZP r { FlagEffect.none with cf := .set false, of := .set false, af := .undef }

/-! ## The eight two-operand operations (R266): destination, source, CF before -/

def aluAdd {w : Nat} (a b : BitVec w) (_ : Bool) : BitVec w × FlagEffect := addN a b false
def aluAdc {w : Nat} (a b : BitVec w) (c : Bool) : BitVec w × FlagEffect := addN a b c
def aluSub {w : Nat} (a b : BitVec w) (_ : Bool) : BitVec w × FlagEffect := subN a b false
def aluSbb {w : Nat} (a b : BitVec w) (c : Bool) : BitVec w × FlagEffect := subN a b c
def aluAnd {w : Nat} (a b : BitVec w) (_ : Bool) : BitVec w × FlagEffect := (a &&& b, logicN (a &&& b))
def aluOr {w : Nat} (a b : BitVec w) (_ : Bool) : BitVec w × FlagEffect := (a ||| b, logicN (a ||| b))
def aluXor {w : Nat} (a b : BitVec w) (_ : Bool) : BitVec w × FlagEffect := (a ^^^ b, logicN (a ^^^ b))

/-- `Sub_N(0, a, 0)`: NEG (R277). -/
def negN {w : Nat} (a : BitVec w) : BitVec w × FlagEffect := subN 0 a false

/-! ## Products and quotients (R278 to R281, R486) -/

/-- CF and OF as given, the other four undefined (R278, R279, R486). -/
def mulFlags (high : Bool) : FlagEffect := ⟨.set high, .undef, .undef, .undef, .undef, .set high⟩

/-- The unsigned product of twice the width, and whether its high half is not 0 (R278). -/
def mulN {w : Nat} (a b : BitVec w) : BitVec (w + w) × FlagEffect :=
  let p := a.toNat * b.toNat
  (BitVec.ofNat (w + w) p, mulFlags (decide (2 ^ w ≤ p)))

/-- The signed product of twice the width, and whether it does not fit in `w` signed bits (R279). -/
def imulN {w : Nat} (a b : BitVec w) : BitVec (w + w) × FlagEffect :=
  let p := a.toInt * b.toInt
  (BitVec.ofInt (w + w) p, mulFlags (decide (p < -(2 ^ (w - 1) : Int) ∨ (2 ^ (w - 1) : Int) ≤ p)))

/-- The unsigned quotient and remainder, or `none` for a divide error (R280). -/
def divN {w : Nat} (n : BitVec (w + w)) (d : BitVec w) : Option (BitVec w × BitVec w) :=
  if d.toNat = 0 ∨ 2 ^ w - 1 < n.toNat / d.toNat then none
  else some (BitVec.ofNat w (n.toNat / d.toNat), BitVec.ofNat w (n.toNat % d.toNat))

/-- The signed quotient, rounded toward zero, and remainder, or `none` for a divide error: the most negative quotient is one
(R281). -/
def idivN {w : Nat} (n : BitVec (w + w)) (d : BitVec w) : Option (BitVec w × BitVec w) :=
  if d.toInt = 0 then none
  else
    let q := n.toInt.tdiv d.toInt
    let r := n.toInt - q * d.toInt
    if (2 ^ (w - 1) - 1 : Int) < q ∨ q < -(2 ^ (w - 1) - 1 : Int) then none
    else some (BitVec.ofInt w q, BitVec.ofInt w r)

/-! ## Decimal and ASCII adjust (R282 to R287) -/

/-- DAA on AL, with CF and AF before: the new AL and the flags (R282). -/
def daaN (al : Byte) (cf af : Bool) : Byte × FlagEffect :=
  let lowAdj := decide (9 < al.toNat % 16) || af
  let highAdj := decide (0x99 < al.toNat) || cf
  let al1 := if lowAdj then al + 0x06#8 else al
  let al2 := if highAdj then al1 + 0x60#8 else al1
  (al2, setSZP al2 { FlagEffect.none with cf := .set highAdj, af := .set lowAdj, of := .undef })

/-- DAS on AL, with CF and AF before (R283). -/
def dasN (al : Byte) (cf af : Bool) : Byte × FlagEffect :=
  let lowAdj := decide (9 < al.toNat % 16) || af
  let highAdj := decide (0x99 < al.toNat) || cf
  let cf1 := if lowAdj then cf || decide (al.toNat < 6) else false
  let al1 := if lowAdj then al - 0x06#8 else al
  let al2 := if highAdj then al1 - 0x60#8 else al1
  (al2, setSZP al2 { FlagEffect.none with cf := .set (if highAdj then true else cf1), af := .set lowAdj, of := .undef })

/-- The flags of AAA and AAS (R284, R285). -/
def asciiFlags (adj : Bool) : FlagEffect := ⟨.set adj, .undef, .set adj, .undef, .undef, .undef⟩

/-- AAA on AL and AH, with AF before: AL adjusted as a byte, AH apart (R284). -/
def aaaN (al ah : Byte) (af : Bool) : Byte × Byte × FlagEffect :=
  let adj := decide (9 < al.toNat % 16) || af
  ((if adj then al + 6#8 else al) &&& 0x0F#8, if adj then ah + 1#8 else ah, asciiFlags adj)

/-- AAS on AL and AH, with AF before (R285). -/
def aasN (al ah : Byte) (af : Bool) : Byte × Byte × FlagEffect :=
  let adj := decide (9 < al.toNat % 16) || af
  ((if adj then al - 6#8 else al) &&& 0x0F#8, if adj then ah - 1#8 else ah, asciiFlags adj)

/-- The flags of AAM and AAD from the new AL: SF, ZF, PF from it, the others undefined (R286, R287). -/
def aamFlags (al : Byte) : FlagEffect := setSZP al ⟨.undef, .undef, .undef, .undef, .undef, .undef⟩

/-- AAM: AH and AL from AL and the base (R286). -/
def aamN (al base : Byte) : Byte × Byte :=
  (BitVec.ofNat 8 (al.toNat / base.toNat), BitVec.ofNat 8 (al.toNat % base.toNat))

/-- AAD: AL from AL, AH and the base (R287). -/
def aadN (al ah base : Byte) : Byte := BitVec.ofNat 8 (al.toNat + ah.toNat * base.toNat)

/-! ## Shifts and rotates (R330 to R339)

Each operation is one single-bit step on the value and CF, repeated as often as the effective count says, as the rules write
it; then the flags of R339. -/

/-- `count` steps of a shift or rotate. -/
def shiftLoop {w : Nat} (one : BitVec w → Bool → BitVec w × Bool) : Nat → BitVec w → Bool → BitVec w × Bool
  | 0, v, cf => (v, cf)
  | n + 1, v, cf => shiftLoop one n (one v cf).1 (one v cf).2

/-- `CF <- msb_N(v); v <- (v * 2) mod 2^N` (R332). -/
def shlOne {w : Nat} (v : BitVec w) (_ : Bool) : BitVec w × Bool := (BitVec.ofNat w (v.toNat * 2), v.msb)

/-- `CF <- v[0]; v <- floor(v / 2)` (R333). -/
def shrOne {w : Nat} (v : BitVec w) (_ : Bool) : BitVec w × Bool := (BitVec.ofNat w (v.toNat / 2), v.getLsbD 0)

/-- `CF <- v[0]; v <- floor(v / 2) + (msb_N(v) * 2^(N-1))` (R334). -/
def sarOne {w : Nat} (v : BitVec w) (_ : Bool) : BitVec w × Bool :=
  (BitVec.ofNat w (v.toNat / 2 + v.msb.toNat * 2 ^ (w - 1)), v.getLsbD 0)

/-- `m <- msb_N(v); v <- ((v * 2) mod 2^N) + m; CF <- m` (R335). -/
def rolOne {w : Nat} (v : BitVec w) (_ : Bool) : BitVec w × Bool := (BitVec.ofNat w (v.toNat * 2 + v.msb.toNat), v.msb)

/-- `l <- v[0]; v <- floor(v / 2) + l * 2^(N-1); CF <- l` (R336). -/
def rorOne {w : Nat} (v : BitVec w) (_ : Bool) : BitVec w × Bool :=
  (BitVec.ofNat w (v.toNat / 2 + (v.getLsbD 0).toNat * 2 ^ (w - 1)), v.getLsbD 0)

/-- `m <- msb_N(v); v <- ((v * 2) mod 2^N) + CF; CF <- m` (R337). -/
def rclOne {w : Nat} (v : BitVec w) (cf : Bool) : BitVec w × Bool := (BitVec.ofNat w (v.toNat * 2 + cf.toNat), v.msb)

/-- `l <- v[0]; v <- floor(v / 2) + CF * 2^(N-1); CF <- l` (R338). -/
def rcrOne {w : Nat} (v : BitVec w) (cf : Bool) : BitVec w × Bool :=
  (BitVec.ofNat w (v.toNat / 2 + cf.toNat * 2 ^ (w - 1)), v.getLsbD 0)

/-- OF of a shift or rotate: as given for a count of 1, undefined for a greater one (R339). -/
def shiftOf (c : Nat) (of1 : Bool) : FlagChange := if c = 1 then .set of1 else .undef

/-- The flags of a shift: SF, ZF, PF from the result, AF undefined (R339). -/
def shiftFlags {w : Nat} (r : BitVec w) (cf : Bool) (of : FlagChange) : FlagEffect :=
  setSZP r { FlagEffect.none with cf := .set cf, of := of, af := .undef }

/-- The flags of a rotate: CF and OF only (R339). -/
def rotateFlags (cf : Bool) (of : FlagChange) : FlagEffect := { FlagEffect.none with cf := .set cf, of := of }

/-- SHL by an effective count of at least 1 (R332). -/
def shlN {w : Nat} (v : BitVec w) (cf : Bool) (c : Nat) : BitVec w × FlagEffect :=
  let x := shiftLoop shlOne c v cf
  (x.1, shiftFlags x.1 x.2 (shiftOf c (x.1.msb ^^ x.2)))

/-- SHR by an effective count of at least 1 (R333). -/
def shrN {w : Nat} (v : BitVec w) (cf : Bool) (c : Nat) : BitVec w × FlagEffect :=
  let x := shiftLoop shrOne c v cf
  (x.1, shiftFlags x.1 x.2 (shiftOf c v.msb))

/-- SAR by an effective count of at least 1 (R334). -/
def sarN {w : Nat} (v : BitVec w) (cf : Bool) (c : Nat) : BitVec w × FlagEffect :=
  let x := shiftLoop sarOne c v cf
  (x.1, shiftFlags x.1 x.2 (shiftOf c false))

/-- ROL by an effective count of at least 1 (R335). -/
def rolN {w : Nat} (v : BitVec w) (cf : Bool) (c : Nat) : BitVec w × FlagEffect :=
  let x := shiftLoop rolOne c v cf
  (x.1, rotateFlags x.2 (shiftOf c (x.1.msb ^^ x.2)))

/-- ROR by an effective count of at least 1 (R336). -/
def rorN {w : Nat} (v : BitVec w) (cf : Bool) (c : Nat) : BitVec w × FlagEffect :=
  let x := shiftLoop rorOne c v cf
  (x.1, rotateFlags x.2 (shiftOf c (x.1.msb ^^ x.1.getLsbD (w - 2))))

/-- RCL by an effective count of at least 1 (R337). -/
def rclN {w : Nat} (v : BitVec w) (cf : Bool) (c : Nat) : BitVec w × FlagEffect :=
  let x := shiftLoop rclOne c v cf
  (x.1, rotateFlags x.2 (shiftOf c (x.1.msb ^^ x.2)))

/-- RCR by an effective count of at least 1 (R338). -/
def rcrN {w : Nat} (v : BitVec w) (cf : Bool) (c : Nat) : BitVec w × FlagEffect :=
  let x := shiftLoop rcrOne c v cf
  (x.1, rotateFlags x.2 (shiftOf c (x.1.msb ^^ x.1.getLsbD (w - 2))))

end Sys2Proof.Machine
end

