-- ==== Sys2Proof/Machine/Ops.lean ====
section
/-! DEFINITION. The named operations over registers, flags, memory, stack, ports and the interrupt table; taking an interrupt
(R525, R528), returning from one (R428), and the driver's fault sequence (R150, R151). Each is written once here and every
instruction calls it. -/

namespace Sys2Proof.Machine

open Sys2Proof

/-- What one instruction answers. -/
abbrev Result := Host.Outcome State Fault Refusal

/-! ## Sparse tables: memory, the interrupt table, the port table

A list of keys with their data, keys strictly rising. -/

/-- The datum at a key. -/
def lookup {α : Type} : List (Nat × α) → Nat → Option α
  | [], _ => none
  | (k, v) :: r, a => if k = a then some v else lookup r a

/-- The table with a datum at a key. -/
def insert {α : Type} : List (Nat × α) → Nat → α → List (Nat × α)
  | [], a, v => [(a, v)]
  | (k, u) :: r, a, v =>
    if a < k then (a, v) :: (k, u) :: r
    else if a = k then (a, v) :: r
    else (k, u) :: insert r a v

/-- The table without any entry of a key. -/
def erase {α : Type} : List (Nat × α) → Nat → List (Nat × α)
  | [], _ => []
  | (k, u) :: r, a => if k = a then erase r a else (k, u) :: erase r a

/-- Keys strictly rising. -/
abbrev Rising {α : Type} (t : List (Nat × α)) : Prop := t.Pairwise fun x y => x.1 < y.1

/-! ## Memory (R39, R61 to R65) -/

/-- What an address nothing has written reads as. DESIGN CHOICE (log 3), unsafe: `MEM_INIT` is unspecified (R42). -/
def unlistedByte : Byte := 0x00#8

/-- The canonical form: addresses strictly rising and within 2^20, and no entry that an unlisted address would read as. -/
abbrev Memory.wf (m : Memory) : Prop := Rising m ∧ ∀ c ∈ m, c.1 < 2 ^ 20 ∧ c.2 ≠ unlistedByte

/-- The byte at a physical address. -/
def Memory.read (m : Memory) (a : Nat) : Byte := (lookup m a).getD unlistedByte

/-- The memory with a byte at a physical address. -/
def Memory.write (m : Memory) (a : Nat) (v : Byte) : Memory :=
  if v = unlistedByte then erase m a else insert m a v

/-- `Phys(seg, off) = (seg * 16 + off) mod 2^20` (R61). -/
def phys (seg off : Word) : Nat := (seg.toNat * 16 + off.toNat) % 2 ^ 20

/-- `MemRead(seg:off, 1)` (R62). -/
def State.readByte (s : State) (seg off : Word) : Byte := Memory.read s.mem (phys seg off)

/-- `MemWrite(seg:off, 1, v)` (R63). -/
def State.writeByte (s : State) (seg off : Word) (v : Byte) : State :=
  { s with mem := Memory.write s.mem (phys seg off) v }

/-- `MemRead(seg:off, 2)`: the high byte at `off + 1` modulo 2^16 in the same segment (R64). -/
def State.readWord (s : State) (seg off : Word) : Word := wordOf (s.readByte seg off) (s.readByte seg (off + 1#16))

/-- `MemWrite(seg:off, 2, v)`: the low byte, then the high byte at `off + 1` modulo 2^16 (R65). -/
def State.writeWord (s : State) (seg off v : Word) : State :=
  (s.writeByte seg off (loByte v)).writeByte seg (off + 1#16) (hiByte v)

/-! ## Registers (R21 to R28) -/

/-- `R16[r]`. -/
def getReg16 (g : Regs) : Reg16 → Word
  | .ax => g.ax | .cx => g.cx | .dx => g.dx | .bx => g.bx
  | .sp => g.sp | .bp => g.bp | .si => g.si | .di => g.di

/-- `R16[r] <- v`. -/
def setReg16 (g : Regs) (r : Reg16) (v : Word) : Regs :=
  match r with
  | .ax => { g with ax := v } | .cx => { g with cx := v } | .dx => { g with dx := v } | .bx => { g with bx := v }
  | .sp => { g with sp := v } | .bp => { g with bp := v } | .si => { g with si := v } | .di => { g with di := v }

/-- The 16-bit register a byte register is a half of (R24). -/
def parent : Reg8 → Reg16
  | .al | .ah => .ax
  | .cl | .ch => .cx
  | .dl | .dh => .dx
  | .bl | .bh => .bx

/-- Whether a byte register is the high half of its parent (R24). -/
def isHigh : Reg8 → Bool
  | .al | .cl | .dl | .bl => false
  | .ah | .ch | .dh | .bh => true

/-- `R8[r]` (R24). -/
def getReg8 (g : Regs) (r : Reg8) : Byte :=
  if isHigh r then hiByte (getReg16 g (parent r)) else loByte (getReg16 g (parent r))

/-- `R8[r] <- v`: only that byte of the parent changes (R24). -/
def setReg8 (g : Regs) (r : Reg8) (v : Byte) : Regs :=
  let p := getReg16 g (parent r)
  setReg16 g (parent r) (if isHigh r then wordOf (loByte p) v else wordOf v (hiByte p))

/-- `SR[r]` (R26). -/
def getSReg (g : SRegs) : SReg → Word
  | .es => g.es | .cs => g.cs | .ss => g.ss | .ds => g.ds

/-- `SR[r] <- v`. -/
def setSReg (g : SRegs) (r : SReg) (v : Word) : SRegs :=
  match r with
  | .es => { g with es := v } | .cs => { g with cs := v } | .ss => { g with ss := v } | .ds => { g with ds := v }

def State.reg16 (s : State) (r : Reg16) : Word := getReg16 s.regs r
def State.setReg16 (s : State) (r : Reg16) (v : Word) : State := { s with regs := Machine.setReg16 s.regs r v }
def State.reg8 (s : State) (r : Reg8) : Byte := getReg8 s.regs r
def State.setReg8 (s : State) (r : Reg8) (v : Byte) : State := { s with regs := Machine.setReg8 s.regs r v }
def State.sreg (s : State) (r : SReg) : Word := getSReg s.sregs r
def State.setSReg (s : State) (r : SReg) (v : Word) : State := { s with sregs := Machine.setSReg s.sregs r v }

/-- `IP <- v`. -/
def State.setIp (s : State) (v : Word) : State := { s with ip := v }

/-- `CS <- sg; IP <- off`: a far transfer (R10). -/
def State.setCsIp (s : State) (sg off : Word) : State := (s.setSReg .cs sg).setIp off

/-! ## Flags (R29 to R31) -/

/-- `FlagsImage()` (R30). -/
def State.flagsImage (s : State) : Word := s.flags.image

/-- `SetFlagsFromImage(v)` (R30). -/
def State.setFlagsFromImage (s : State) (v : Word) : State := { s with flags := Flags.ofImage v }

/-- The state after a flag effect; its undefined flags use free bits (R15). -/
def State.applyFlags (s : State) (e : FlagEffect) : State :=
  { s with flags := e.apply s.flags s.draws, draws := s.draws + e.cost }

/-! ## The stack (R175 to R177) -/

/-- `Push16(v)` (R175). -/
def State.push16 (s : State) (v : Word) : State :=
  let s1 := s.setReg16 .sp (s.reg16 .sp - 2#16)
  s1.writeWord (s1.sreg .ss) (s1.reg16 .sp) v

/-- `Pop16()`: the value, and the state with SP moved (R176). -/
def State.pop16 (s : State) : Word × State :=
  (s.readWord (s.sreg .ss) (s.reg16 .sp), s.setReg16 .sp (s.reg16 .sp + 2#16))

/-! ## Handlers of the environment (R526, R77) -/

/-- The memory after the writes a handler made, in order. -/
def applyWrites (m : Memory) (l : List (BitVec 20 × Byte)) : Memory :=
  l.foldl (fun m c => Memory.write m c.1.toNat c.2) m

/-- The record of an access with no handler (R38, R524). -/
def unmappedRecord (s : State) : UnmappedAccess → DiagRecord
  | .interrupt n => .unmappedInterrupt s.cs0 s.ip0 n
  | .port p => .unmappedPort s.cs0 s.ip0 p

/-- Under `STRICT_DIAG` the records are appended; else nothing happens (R524). -/
def State.noteUnmapped (s : State) (l : List UnmappedAccess) : State :=
  if s.cfg.strictDiag then { s with diag := s.diag ++ l.map (unmappedRecord s) } else s

/-- The state an interrupt handler of the environment leaves (R526). The tables, Prefix State, the driver state and what the
driver recorded are not the handler's to change. -/
def State.applyIntEffect (s : State) (e : IntEffect) : State :=
  { s.noteUnmapped e.unmapped with
    regs    := e.regs
    sregs   := e.sregs
    ip      := e.ip
    flags   := e.flags
    mem     := applyWrites s.mem e.writes
    pending := e.pending
    draws   := s.draws + 1 }

/-- The state a port handler of the environment leaves (R77). -/
def State.applyPortEffect (s : State) (e : PortEffect) : State :=
  { s with mem := applyWrites s.mem e.writes, pending := e.pending, draws := s.draws + 1 }

/-! ## Ports (R75 to R77) -/

/-- The read handler of a port, if it has one. -/
def State.readHandler (s : State) (port : Word) : Option Nat := (lookup s.portTable port.toNat).bind PortEntry.read

/-- The write handler of a port, if it has one. -/
def State.writeHandler (s : State) (port : Word) : Option Nat := (lookup s.portTable port.toNat).bind PortEntry.write

/-- `PortIn(port, 1)` (R75): of a handler's value a byte access takes bits 7:0. -/
def State.portIn8 (s : State) (port : Word) : Byte × State :=
  match s.readHandler port with
  | none => (s.cfg.portIdleByte, s.noteUnmapped [.port port])
  | some id =>
    let r := hostPortRead id port .byte s
    (loByte r.1, s.applyPortEffect r.2)

/-- `PortIn(port, 2)`: one call of the handler of `port` (R75). -/
def State.portIn16 (s : State) (port : Word) : Word × State :=
  match s.readHandler port with
  | none => (s.cfg.portIdleWord, s.noteUnmapped [.port port])
  | some id =>
    let r := hostPortRead id port .word s
    (r.1, s.applyPortEffect r.2)

/-- `PortOut(port, 1, v)` (R76). -/
def State.portOut8 (s : State) (port : Word) (v : Byte) : State :=
  match s.writeHandler port with
  | none => s.noteUnmapped [.port port]
  | some id => s.applyPortEffect (hostPortWrite id port .byte (zext16 v) s)

/-- `PortOut(port, 2, v)`: one call of the handler of `port` (R76). -/
def State.portOut16 (s : State) (port v : Word) : State :=
  match s.writeHandler port with
  | none => s.noteUnmapped [.port port]
  | some id => s.applyPortEffect (hostPortWrite id port .word v s)

/-! ## Interrupts (R525 to R529, R428) -/

/-- `GUEST_VECTOR(n)`: FLAGS, CS and IP pushed, IF and TF cleared, CS:IP loaded from 0000h:4n (R528). -/
def State.guestVector (s : State) (n : Byte) : State :=
  let s1 := s.push16 s.flagsImage
  let s2 := { s1 with flags := { s1.flags with iflag := false, tf := false } }
  let s3 := s2.push16 (s2.sreg .cs)
  let s4 := s3.push16 s3.ip
  let v : Word := 4#16 * zext16 n
  let s5 := s4.setIp (s4.readWord 0#16 v)
  s5.setSReg .cs (s5.readWord 0#16 (v + 2#16))

/-- `RaiseInterrupt(n)`: the handler of slot `n`, or nothing where there is none (R525). The one operation by which every
interrupt is taken. -/
def State.raiseInterrupt (s : State) (n : Byte) : State :=
  match lookup s.intTable n.toNat with
  | none => s.noteUnmapped [.interrupt n]
  | some .guestVector => s.guestVector n
  | some (.host id) => s.applyIntEffect (hostInterrupt id s)

/-- `DivideError()`: vector 0 with the six arithmetic flags undefined and AX, DX as they were (R529). DEDUCED (log 14): the
flags are drawn before the handler sees them, as vector I2 of `95_test_vectors.md` has it. -/
def State.divideError (s : State) : State := (s.applyFlags .allUndef).raiseInterrupt 0#8

/-- IRET: `IP <- Pop16(); CS <- Pop16(); SetFlagsFromImage(Pop16())` (R428). -/
def State.interruptReturn (s : State) : State :=
  let p := s.pop16
  let s1 := p.2.setIp p.1
  let q := s1.pop16
  let s2 := q.2.setSReg .cs q.1
  let r := s2.pop16
  r.2.setFlagsFromImage r.1

/-! ## The driver's fault sequence (R150, R151) -/

/-- A fault: the record appended, Prefix State cleared, then by `FAULT_POLICY` the driver stays in Fault with IP at IP0, or is
Idle again with IP where it stands, after the bytes consumed. -/
def State.takeFault (s : State) (r : DiagRecord) : State :=
  let s1 := { s with diag := s.diag ++ [r], pfx := PrefixState.empty }
  match s.cfg.faultPolicy with
  | .halt => { s1 with ip := s.ip0, driver := .fault }
  | .skip => { s1 with driver := .idle }

end Sys2Proof.Machine
end

