-- ==== Sys2Proof/Machine/Operands.lean ====
section
/-! DEFINITION. Every operand form: effective address and segment (R161 to R165), the resolved operand, computed once from the
registers as they are at decode (R100, R149), its reads and writes (R166, R167), and the shapes that several instructions
share (R266, R330, R360, R361). -/

namespace Sys2Proof.Machine

open Sys2Proof

/-! ## The resolver -/

/-- `base(rm)` (R161). -/
def baseSum (g : Regs) : Base → Word
  | .bxSi => g.bx + g.si
  | .bxDi => g.bx + g.di
  | .bpSi => g.bp + g.si
  | .bpDi => g.bp + g.di
  | .si => g.si
  | .di => g.di
  | .bp => g.bp
  | .bx => g.bx

/-- `disp` (R162). -/
def dispValue : Disp → Word
  | .none => 0#16
  | .disp8 d => sext16 d
  | .disp16 d => d

/-- The effective address (R161, R163). -/
def effAddr (g : Regs) : MemOp → Word
  | .direct off => off
  | .based b d => baseSum g b + dispValue d

/-- The default segment: SS where the base combination has BP, else DS (R165). -/
def defaultSeg : MemOp → SReg
  | .direct _ => .ds
  | .based b _ =>
    match b with
    | .bpSi | .bpDi | .bp => .ss
    | .bxSi | .bxDi | .si | .di | .bx => .ds

/-- `SegFor(default)`: the override of Prefix State if there is one (R165). -/
def State.segFor (s : State) (d : SReg) : Word := s.sreg (s.pfx.seg.getD d)

/-- A resolved operand: a register, or memory at a segment value and an effective address (R100). -/
inductive Loc (ρ : Type)
  | reg (r : ρ)
  | mem (seg ea : Word)
  deriving DecidableEq, Repr

/-- The effective address of a memory operand in a state. -/
def State.ea (s : State) (m : MemOp) : Word := effAddr s.regs m

/-- The segment value of a memory operand in a state. -/
def State.memSeg (s : State) (m : MemOp) : Word := s.segFor (defaultSeg m)

/-- The operand resolved from the registers of the state (R149, R160). -/
def State.resolve {ρ : Type} (s : State) : RM ρ → Loc ρ
  | .reg r => .reg r
  | .mem m => .mem (s.memSeg m) (s.ea m)

/-- `ReadOp(x)`, 8 bits (R166). -/
def State.readOp8 (s : State) : Loc Reg8 → Byte
  | .reg r => s.reg8 r
  | .mem seg ea => s.readByte seg ea

/-- `WriteOp(x, v)`, 8 bits (R166). -/
def State.writeOp8 (s : State) (x : Loc Reg8) (v : Byte) : State :=
  match x with
  | .reg r => s.setReg8 r v
  | .mem seg ea => s.writeByte seg ea v

/-- `ReadOp(x)`, 16 bits (R166). -/
def State.readOp16 (s : State) : Loc Reg16 → Word
  | .reg r => s.reg16 r
  | .mem seg ea => s.readWord seg ea

/-- `WriteOp(x, v)`, 16 bits (R166). -/
def State.writeOp16 (s : State) (x : Loc Reg16) (v : Word) : State :=
  match x with
  | .reg r => s.setReg16 r v
  | .mem seg ea => s.writeWord seg ea v

/-- `ReadOp` of an unresolved operand, 8 bits. -/
def State.readRM8 (s : State) (x : RM8) : Byte := s.readOp8 (s.resolve x)

/-- `ReadOp` of an unresolved operand, 16 bits. -/
def State.readRM16 (s : State) (x : RM16) : Word := s.readOp16 (s.resolve x)

/-- A far pointer in memory: the offset word at the effective address, the segment word two bytes on modulo 2^16 (R68,
R164). -/
def State.readFar (s : State) (m : MemOp) : Word × Word :=
  (s.readWord (s.memSeg m) (s.ea m), s.readWord (s.memSeg m) (s.ea m + 2#16))

/-! ## Two-operand ALU operations (R266) -/

/-- The type of an ALU operation: destination, source, CF before. -/
abbrev AluFn := {w : Nat} → BitVec w → BitVec w → Bool → BitVec w × FlagEffect

/-- Byte operation on a register-or-memory destination: read once, written once at the same place (R266). -/
def State.aluRm8 (s : State) (f : AluFn) (x : RM8) (src : Byte) : State :=
  let l := s.resolve x
  let r := f (s.readOp8 l) src s.flags.cf
  (s.writeOp8 l r.1).applyFlags r.2

/-- Word operation on a register-or-memory destination (R266). -/
def State.aluRm16 (s : State) (f : AluFn) (x : RM16) (src : Word) : State :=
  let l := s.resolve x
  let r := f (s.readOp16 l) src s.flags.cf
  (s.writeOp16 l r.1).applyFlags r.2

/-- The ten forms of an operation that writes its destination (R266). -/
def State.alu (s : State) (f : AluFn) : AluForm → State
  | .rm8Reg8 x r => s.aluRm8 f x (s.reg8 r)
  | .rm16Reg16 x r => s.aluRm16 f x (s.reg16 r)
  | .reg8Rm8 r x => s.aluRm8 f (.reg r) (s.readRM8 x)
  | .reg16Rm16 r x => s.aluRm16 f (.reg r) (s.readRM16 x)
  | .alImm8 i => s.aluRm8 f (.reg .al) i
  | .axImm16 i => s.aluRm16 f (.reg .ax) i
  | .rm8Imm8 x i => s.aluRm8 f x i
  | .rm16Imm16 x i => s.aluRm16 f x i
  | .rm8Imm8Alias x i => s.aluRm8 f x i
  | .rm16Imm8 x i => s.aluRm16 f x (sext16 i)

/-- The flags of a byte operation; nothing is written (CMP: R266). -/
def State.aluFlags8 (s : State) (f : AluFn) (a b : Byte) : State := s.applyFlags (f a b s.flags.cf).2

/-- The flags of a word operation; nothing is written. -/
def State.aluFlags16 (s : State) (f : AluFn) (a b : Word) : State := s.applyFlags (f a b s.flags.cf).2

/-- The ten forms of an operation that writes no destination (CMP: R266, R274). -/
def State.aluDiscard (s : State) (f : AluFn) : AluForm → State
  | .rm8Reg8 x r => s.aluFlags8 f (s.readRM8 x) (s.reg8 r)
  | .rm16Reg16 x r => s.aluFlags16 f (s.readRM16 x) (s.reg16 r)
  | .reg8Rm8 r x => s.aluFlags8 f (s.reg8 r) (s.readRM8 x)
  | .reg16Rm16 r x => s.aluFlags16 f (s.reg16 r) (s.readRM16 x)
  | .alImm8 i => s.aluFlags8 f (s.reg8 .al) i
  | .axImm16 i => s.aluFlags16 f (s.reg16 .ax) i
  | .rm8Imm8 x i => s.aluFlags8 f (s.readRM8 x) i
  | .rm16Imm16 x i => s.aluFlags16 f (s.readRM16 x) i
  | .rm8Imm8Alias x i => s.aluFlags8 f (s.readRM8 x) i
  | .rm16Imm8 x i => s.aluFlags16 f (s.readRM16 x) (sext16 i)

/-- The type of a one-operand operation. -/
abbrev UnFn := {w : Nat} → BitVec w → BitVec w × FlagEffect

/-- A one-operand operation on r/m8 (R264, R277, R324). -/
def State.unRm8 (s : State) (f : UnFn) (x : RM8) : State :=
  let l := s.resolve x
  let r := f (s.readOp8 l)
  (s.writeOp8 l r.1).applyFlags r.2

/-- A one-operand operation on r/m16. -/
def State.unRm16 (s : State) (f : UnFn) (x : RM16) : State :=
  let l := s.resolve x
  let r := f (s.readOp16 l)
  (s.writeOp16 l r.1).applyFlags r.2

/-- The two forms of a unary-group operation that writes its operand. -/
def State.unary (s : State) (f : UnFn) : UnaryForm → State
  | .rm8 x => s.unRm8 f x
  | .rm16 x => s.unRm16 f x

/-- The three forms of INC and DEC (R275, R276). -/
def State.incDec (s : State) (f : UnFn) : IncForm → State
  | .reg16 r => s.unRm16 f (.reg r)
  | .rm8 x => s.unRm8 f x
  | .rm16 x => s.unRm16 f x

/-! ## Shifts and rotates (R330, R331, R490) -/

/-- The type of a shift or rotate: value, CF before, effective count. -/
abbrev ShiftFn := {w : Nat} → BitVec w → Bool → Nat → BitVec w × FlagEffect

/-- The effective count of a count in CL: as it is at the 8086 level, its low five bits at the 80186 level (R331). -/
def State.clCount (s : State) : Nat :=
  match s.cfg.isaLevel with
  | .i8086 => (s.reg8 .cl).toNat
  | .i80186 => (s.reg8 .cl).toNat % 32

/-- A shift of r/m8: an effective count of 0 writes nothing and changes no flag (R330). -/
def State.shiftRm8 (s : State) (f : ShiftFn) (x : RM8) (c : Nat) : State :=
  let l := s.resolve x
  if c = 0 then s
  else
    let r := f (s.readOp8 l) s.flags.cf c
    (s.writeOp8 l r.1).applyFlags r.2

/-- A shift of r/m16. -/
def State.shiftRm16 (s : State) (f : ShiftFn) (x : RM16) (c : Nat) : State :=
  let l := s.resolve x
  if c = 0 then s
  else
    let r := f (s.readOp16 l) s.flags.cf c
    (s.writeOp16 l r.1).applyFlags r.2

/-- The six forms of a shift or rotate (R330, R490). -/
def State.shift (s : State) (f : ShiftFn) : ShiftForm → State
  | .rm8One x => s.shiftRm8 f x 1
  | .rm16One x => s.shiftRm16 f x 1
  | .rm8Cl x => s.shiftRm8 f x s.clCount
  | .rm16Cl x => s.shiftRm16 f x s.clCount
  | .rm8Imm x i => s.shiftRm8 f x (i.toNat % 32)
  | .rm16Imm x i => s.shiftRm16 f x (i.toNat % 32)

/-! ## String instructions (R360, R361) -/

/-- `step`: the element size, or its negative when DF = 1 (R360). -/
def State.strStep (s : State) (size : Word) : Word := if s.flags.df then 0#16 - size else size

/-- `SI <- SI + step` (R360). -/
def State.stepSi (s : State) (size : Word) : State := s.setReg16 .si (s.reg16 .si + s.strStep size)

/-- `DI <- DI + step` (R360). -/
def State.stepDi (s : State) (size : Word) : State := s.setReg16 .di (s.reg16 .di + s.strStep size)

/-- The source element, a byte at `SegFor(DS):SI` (R360). -/
def State.srcByte (s : State) : Byte := s.readByte (s.segFor .ds) (s.reg16 .si)

/-- The source element, a word. -/
def State.srcWord (s : State) : Word := s.readWord (s.segFor .ds) (s.reg16 .si)

/-- The destination element, a byte at `ES:DI`, which no prefix moves (R360). -/
def State.dstByte (s : State) : Byte := s.readByte (s.sreg .es) (s.reg16 .di)

/-- The destination element, a word. -/
def State.dstWord (s : State) : Word := s.readWord (s.sreg .es) (s.reg16 .di)

/-- Store a byte at `ES:DI`. -/
def State.storeByte (s : State) (v : Byte) : State := s.writeByte (s.sreg .es) (s.reg16 .di) v

/-- Store a word at `ES:DI`. -/
def State.storeWord (s : State) (v : Word) : State := s.writeWord (s.sreg .es) (s.reg16 .di) v

/-- `CX <- (CX - 1) mod 2^16`, no flag (R361 c). -/
def State.decCx (s : State) : State := s.setReg16 .cx (s.reg16 .cx - 1#16)

/-- A compare ends the loop: REPE on ZF = 0, REPNE on ZF = 1 (R361). -/
def repStops (k : RepKind) (zf : Bool) : Bool :=
  match k with
  | .repe => !zf
  | .repne => zf

/-- The loop of R361: `while CX != 0`, the CX test before the body, the ZF test after the decrement. `fuel` is at least CX. -/
def repLoop (k : RepKind) (compares : Bool) (body : State → State) : Nat → State → State
  | 0, s => s
  | fuel + 1, s =>
    if s.reg16 .cx = 0#16 then s
    else
      let s1 := (body s).decCx
      if compares && repStops k s1.flags.zf then s1 else repLoop k compares body fuel s1

/-- `StringOp(body, compares)` (R361). CX goes down by one for each element, so CX at the start bounds the loop. -/
def State.stringOp (s : State) (compares : Bool) (body : State → State) : State :=
  match s.pfx.rep with
  | none => body s
  | some k => repLoop k compares body (s.reg16 .cx).toNat s

end Sys2Proof.Machine
end

