-- ==== Sys2Proof/Machine/Arith.lean ====
section
/-! DEFINITION. The meanings of the arithmetic instructions, `42_arithmetic.md`, and of the 80186 level's IMUL with an
immediate (R486, R487). -/

namespace Sys2Proof.Machine

open Sys2Proof

/-- ADD (R270). -/
def execAdd (f : AluForm) (s : State) : Result := .next (s.alu aluAdd f)

/-- ADC (R271). -/
def execAdc (f : AluForm) (s : State) : Result := .next (s.alu aluAdc f)

/-- SUB (R272). -/
def execSub (f : AluForm) (s : State) : Result := .next (s.alu aluSub f)

/-- SBB (R273). -/
def execSbb (f : AluForm) (s : State) : Result := .next (s.alu aluSbb f)

/-- CMP (R274): SUB's flags, nothing written. -/
def execCmp (f : AluForm) (s : State) : Result := .next (s.aluDiscard aluSub f)

/-- INC (R275). -/
def execInc (f : IncForm) (s : State) : Result := .next (s.incDec incN f)

/-- DEC (R276). -/
def execDec (f : IncForm) (s : State) : Result := .next (s.incDec decN f)

/-- NEG (R277). -/
def execNeg (f : UnaryForm) (s : State) : Result := .next (s.unary negN f)

/-- `AX <- p`, or `DX <- p[31:16]; AX <- p[15:0]` (R278, R279). -/
def State.setDxAx (s : State) (p : BitVec 32) : State :=
  (s.setReg16 .dx (p.extractLsb' 16 16)).setReg16 .ax (p.extractLsb' 0 16)

/-- `DX ++ AX` (R280). -/
def State.dxAx (s : State) : BitVec 32 := s.reg16 .dx ++ s.reg16 .ax

/-- MUL (R278). -/
def execMul (f : UnaryForm) (s : State) : Result :=
  match f with
  | .rm8 x =>
    let r := mulN (s.reg8 .al) (s.readRM8 x)
    .next ((s.setReg16 .ax r.1).applyFlags r.2)
  | .rm16 x =>
    let r := mulN (s.reg16 .ax) (s.readRM16 x)
    .next ((s.setDxAx r.1).applyFlags r.2)

/-- IMUL, one operand (R279). -/
def execImul (f : UnaryForm) (s : State) : Result :=
  match f with
  | .rm8 x =>
    let r := imulN (s.reg8 .al) (s.readRM8 x)
    .next ((s.setReg16 .ax r.1).applyFlags r.2)
  | .rm16 x =>
    let r := imulN (s.reg16 .ax) (s.readRM16 x)
    .next ((s.setDxAx r.1).applyFlags r.2)

/-- The end of a byte divide: quotient to AL, remainder to AH, or the divide error; six flags undefined either way (R280,
R281). -/
def State.finishDiv8 (s : State) (q : Option (Byte × Byte)) : State :=
  match q with
  | none => s.divideError
  | some (q, r) => ((s.setReg8 .al q).setReg8 .ah r).applyFlags .allUndef

/-- The end of a word divide: quotient to AX, remainder to DX, or the divide error (R280, R281). -/
def State.finishDiv16 (s : State) (q : Option (Word × Word)) : State :=
  match q with
  | none => s.divideError
  | some (q, r) => ((s.setReg16 .ax q).setReg16 .dx r).applyFlags .allUndef

/-- DIV (R280). -/
def execDiv (f : UnaryForm) (s : State) : Result :=
  match f with
  | .rm8 x => .next (s.finishDiv8 (divN (w := 8) (s.reg16 .ax) (s.readRM8 x)))
  | .rm16 x => .next (s.finishDiv16 (divN (w := 16) s.dxAx (s.readRM16 x)))

/-- IDIV (R281). -/
def execIdiv (f : UnaryForm) (s : State) : Result :=
  match f with
  | .rm8 x => .next (s.finishDiv8 (idivN (w := 8) (s.reg16 .ax) (s.readRM8 x)))
  | .rm16 x => .next (s.finishDiv16 (idivN (w := 16) s.dxAx (s.readRM16 x)))

/-- DAA (R282). -/
def execDaa (s : State) : Result :=
  let r := daaN (s.reg8 .al) s.flags.cf s.flags.af
  .next ((s.setReg8 .al r.1).applyFlags r.2)

/-- DAS (R283). -/
def execDas (s : State) : Result :=
  let r := dasN (s.reg8 .al) s.flags.cf s.flags.af
  .next ((s.setReg8 .al r.1).applyFlags r.2)

/-- AAA (R284). -/
def execAaa (s : State) : Result :=
  let r := aaaN (s.reg8 .al) (s.reg8 .ah) s.flags.af
  .next (((s.setReg8 .al r.1).setReg8 .ah r.2.1).applyFlags r.2.2)

/-- AAS (R285). -/
def execAas (s : State) : Result :=
  let r := aasN (s.reg8 .al) (s.reg8 .ah) s.flags.af
  .next (((s.setReg8 .al r.1).setReg8 .ah r.2.1).applyFlags r.2.2)

/-- AAM (R286): base 0 is a divide error. -/
def execAam (base : Byte) (s : State) : Result :=
  if base = 0#8 then .next s.divideError
  else
    let r := aamN (s.reg8 .al) base
    .next (((s.setReg8 .ah r.1).setReg8 .al r.2).applyFlags (aamFlags r.2))

/-- AAD (R287). -/
def execAad (base : Byte) (s : State) : Result :=
  let al := aadN (s.reg8 .al) (s.reg8 .ah) base
  .next (((s.setReg8 .al al).setReg8 .ah 0#8).applyFlags (aamFlags al))

/-- CBW (R288). -/
def execCbw (s : State) : Result := .next (s.setReg16 .ax (sext16 (s.reg8 .al)))

/-- CWD (R289). -/
def execCwd (s : State) : Result := .next (s.setReg16 .dx (if (s.reg16 .ax).msb then 0xFFFF#16 else 0#16))

/-- IMUL r16, r/m16, imm: the low word to the register, CF and OF set when the product does not fit (R486). -/
def State.imulImm (s : State) (r : Reg16) (x : RM16) (i : Word) : State :=
  let p := imulN (s.readRM16 x) i
  (s.setReg16 r (p.1.extractLsb' 0 16)).applyFlags p.2

/-- IMUL r16, r/m16, imm16 (R486). -/
def execImulImm16 (r : Reg16) (x : RM16) (i : Word) (s : State) : Result := .next (s.imulImm r x i)

/-- IMUL r16, r/m16, imm8 (R487). -/
def execImulImm8 (r : Reg16) (x : RM16) (i : Byte) (s : State) : Result := .next (s.imulImm r x (sext16 i))

end Sys2Proof.Machine
end

