-- ==== Sys2Proof/Machine/Control.lean ====
section
/-! DEFINITION. The meanings of the control transfer instructions, `45_control_transfer.md`. A meaning is given the state with
`IP = IPnext`, the address of the next instruction (R16). -/

namespace Sys2Proof.Machine

open Sys2Proof

/-- `RelTarget8(d) = (IPnext + sext_16(d)) mod 2^16` (R390). -/
def State.relTarget8 (s : State) (d : Byte) : Word := s.ip + sext16 d

/-- `RelTarget16(D) = (IPnext + D) mod 2^16` (R390). -/
def State.relTarget16 (s : State) (d : Word) : Word := s.ip + d

/-- JMP rel8 (R391). -/
def execJmpShort (d : Byte) (s : State) : Result := .next (s.setIp (s.relTarget8 d))

/-- JMP rel16 (R392). -/
def execJmpNear (d : Word) (s : State) : Result := .next (s.setIp (s.relTarget16 d))

/-- JMP r/m16 (R393). -/
def execJmpRm (x : RM16) (s : State) : Result := .next (s.setIp (s.readRM16 x))

/-- JMP ptr16:16 (R394). -/
def execJmpFar (off sg : Word) (s : State) : Result := .next (s.setCsIp sg off)

/-- JMP m16:16 (R395). -/
def execJmpMemFar (m : MemOp) (s : State) : Result := .next (s.setCsIp (s.readFar m).2 (s.readFar m).1)

/-- CALL rel16 (R396). -/
def execCallNear (d : Word) (s : State) : Result := .next ((s.push16 s.ip).setIp (s.relTarget16 d))

/-- CALL r/m16 (R397): the target is read before the push. -/
def execCallRm (x : RM16) (s : State) : Result := .next ((s.push16 s.ip).setIp (s.readRM16 x))

/-- CS pushed, then IP, then a far transfer (R398, R399). -/
def State.callFarTo (s : State) (sg off : Word) : State := ((s.push16 (s.sreg .cs)).push16 s.ip).setCsIp sg off

/-- CALL ptr16:16 (R398). -/
def execCallFar (off sg : Word) (s : State) : Result := .next (s.callFarTo sg off)

/-- CALL m16:16 (R399): both pointer words are read before either push. -/
def execCallMemFar (m : MemOp) (s : State) : Result := .next (s.callFarTo (s.readFar m).2 (s.readFar m).1)

/-- `IP <- Pop16()` (R400). -/
def State.popIp (s : State) : State := s.pop16.2.setIp s.pop16.1

/-- `CS <- Pop16()` (R402). -/
def State.popCs (s : State) : State := s.pop16.2.setSReg .cs s.pop16.1

/-- `SP <- (SP + k) mod 2^16` (R401). -/
def State.release (s : State) (k : Word) : State := s.setReg16 .sp (s.reg16 .sp + k)

/-- RET (R400). -/
def execRet (s : State) : Result := .next s.popIp

/-- RET imm16 (R401). -/
def execRetImm (k : Word) (s : State) : Result := .next (s.popIp.release k)

/-- RETF (R402). -/
def execRetf (s : State) : Result := .next s.popIp.popCs

/-- RETF imm16 (R403). -/
def execRetfImm (k : Word) (s : State) : Result := .next (s.popIp.popCs.release k)

/-- A short jump taken when a condition holds, else IP stays `IPnext` (R404). -/
def State.jumpIf (s : State) (c : Bool) (d : Byte) : State := if c then s.setIp (s.relTarget8 d) else s

/-- JO: taken when OF = 1 (R404, R405). -/
def execJo (d : Byte) (s : State) : Result := .next (s.jumpIf s.flags.of d)

/-- JNO: taken when OF = 0 (R404, R406). -/
def execJno (d : Byte) (s : State) : Result := .next (s.jumpIf (!s.flags.of) d)

/-- JB: taken when CF = 1 (R404, R407). -/
def execJb (d : Byte) (s : State) : Result := .next (s.jumpIf s.flags.cf d)

/-- JAE: taken when CF = 0 (R404, R408). -/
def execJae (d : Byte) (s : State) : Result := .next (s.jumpIf (!s.flags.cf) d)

/-- JE: taken when ZF = 1 (R404, R409). -/
def execJe (d : Byte) (s : State) : Result := .next (s.jumpIf s.flags.zf d)

/-- JNE: taken when ZF = 0 (R404, R410). -/
def execJne (d : Byte) (s : State) : Result := .next (s.jumpIf (!s.flags.zf) d)

/-- JBE: taken when CF = 1 or ZF = 1 (R404, R411). -/
def execJbe (d : Byte) (s : State) : Result := .next (s.jumpIf (s.flags.cf || s.flags.zf) d)

/-- JA: taken when CF = 0 and ZF = 0 (R404, R412). -/
def execJa (d : Byte) (s : State) : Result := .next (s.jumpIf (!s.flags.cf && !s.flags.zf) d)

/-- JS: taken when SF = 1 (R404, R413). -/
def execJs (d : Byte) (s : State) : Result := .next (s.jumpIf s.flags.sf d)

/-- JNS: taken when SF = 0 (R404, R414). -/
def execJns (d : Byte) (s : State) : Result := .next (s.jumpIf (!s.flags.sf) d)

/-- JP: taken when PF = 1 (R404, R415). -/
def execJp (d : Byte) (s : State) : Result := .next (s.jumpIf s.flags.pf d)

/-- JNP: taken when PF = 0 (R404, R416). -/
def execJnp (d : Byte) (s : State) : Result := .next (s.jumpIf (!s.flags.pf) d)

/-- JL: taken when SF != OF (R404, R417). -/
def execJl (d : Byte) (s : State) : Result := .next (s.jumpIf (s.flags.sf != s.flags.of) d)

/-- JGE: taken when SF = OF (R404, R418). -/
def execJge (d : Byte) (s : State) : Result := .next (s.jumpIf (s.flags.sf == s.flags.of) d)

/-- JLE: taken when ZF = 1 or SF != OF (R404, R419). -/
def execJle (d : Byte) (s : State) : Result := .next (s.jumpIf (s.flags.zf || s.flags.sf != s.flags.of) d)

/-- JG: taken when ZF = 0 and SF = OF (R404, R420). -/
def execJg (d : Byte) (s : State) : Result := .next (s.jumpIf (!s.flags.zf && s.flags.sf == s.flags.of) d)

/-- LOOP (R421). -/
def execLoop (d : Byte) (s : State) : Result :=
  let s1 := s.decCx
  .next (s1.jumpIf (s1.reg16 .cx != 0#16) d)

/-- LOOPZ (R422). -/
def execLoopz (d : Byte) (s : State) : Result :=
  let s1 := s.decCx
  .next (s1.jumpIf (s1.reg16 .cx != 0#16 && s1.flags.zf) d)

/-- LOOPNZ (R423). -/
def execLoopnz (d : Byte) (s : State) : Result :=
  let s1 := s.decCx
  .next (s1.jumpIf (s1.reg16 .cx != 0#16 && !s1.flags.zf) d)

/-- JCXZ (R424). -/
def execJcxz (d : Byte) (s : State) : Result := .next (s.jumpIf (s.reg16 .cx == 0#16) d)

/-- INT n (R425). -/
def execInt (n : Byte) (s : State) : Result := .next (s.raiseInterrupt n)

/-- INT 3 (R426). -/
def execInt3 (s : State) : Result := .next (s.raiseInterrupt 3#8)

/-- INTO (R427): vector 4 when OF = 1. -/
def execInto (s : State) : Result := .next (if s.flags.of then s.raiseInterrupt 4#8 else s)

/-- IRET (R428). -/
def execIret (s : State) : Result := .next s.interruptReturn

end Sys2Proof.Machine
end

