-- ==== Sys2Proof/Machine/DataTransfer.lean ====
section
/-! DEFINITION. The meanings of the data transfer instructions, `41_data_transfer.md`. A meaning is given the state with
`IP = IPnext` (R16). -/

namespace Sys2Proof.Machine

open Sys2Proof

/-- MOV r/m, r and MOV r, r/m (R200). -/
def execMovRmReg (f : MovForm) (s : State) : Result :=
  match f with
  | .rm8Reg8 x r => .next (s.writeOp8 (s.resolve x) (s.reg8 r))
  | .rm16Reg16 x r => .next (s.writeOp16 (s.resolve x) (s.reg16 r))
  | .reg8Rm8 r x => .next (s.setReg8 r (s.readRM8 x))
  | .reg16Rm16 r x => .next (s.setReg16 r (s.readRM16 x))

/-- MOV r/m, imm (R201). -/
def execMovRmImm (f : RmImmForm) (s : State) : Result :=
  match f with
  | .rm8Imm8 x i => .next (s.writeOp8 (s.resolve x) i)
  | .rm16Imm16 x i => .next (s.writeOp16 (s.resolve x) i)

/-- MOV r, imm (R202). -/
def execMovRegImm (f : RegImmForm) (s : State) : Result :=
  match f with
  | .reg8Imm8 r i => .next (s.setReg8 r i)
  | .reg16Imm16 r i => .next (s.setReg16 r i)

/-- MOV accumulator, moffs (R203). -/
def execMovMoffs (f : MoffsForm) (s : State) : Result :=
  match f with
  | .alMoffs off => .next (s.setReg8 .al (s.readByte (s.segFor .ds) off))
  | .axMoffs off => .next (s.setReg16 .ax (s.readWord (s.segFor .ds) off))
  | .moffsAl off => .next (s.writeByte (s.segFor .ds) off (s.reg8 .al))
  | .moffsAx off => .next (s.writeWord (s.segFor .ds) off (s.reg16 .ax))

/-- MOV r/m16, sreg (R204). -/
def execMovRmSreg (x : RM16) (sr : SReg) (s : State) : Result :=
  .next (s.writeOp16 (s.resolve x) (s.sreg sr))

/-- MOV sreg, r/m16 (R205): the operand is read through the old segment values. -/
def execMovSregRm (sr : SReg) (x : RM16) (s : State) : Result :=
  .next (s.setSReg sr (s.readRM16 x))

/-- The value PUSH pushes for an operand: for SP, the decremented SP (R206, R207, D26). -/
def pushValue (s : State) (x : RM16) : Word :=
  if x = .reg .sp then s.reg16 .sp - 2#16 else s.readRM16 x

/-- PUSH r16 (R206). -/
def execPushReg (r : Reg16) (s : State) : Result := .next (s.push16 (pushValue s (.reg r)))

/-- PUSH r/m16 (R207): the source is read before SP changes. -/
def execPushRm (x : RM16) (s : State) : Result := .next (s.push16 (pushValue s x))

/-- PUSH sreg (R208). -/
def execPushSreg (sr : SReg) (s : State) : Result := .next (s.push16 (s.sreg sr))

/-- POP r16 (R209): for SP the popped value replaces the incremented SP. -/
def execPopReg (r : Reg16) (s : State) : Result := .next (s.pop16.2.setReg16 r s.pop16.1)

/-- POP r/m16 (R210): the destination is resolved before the pop. -/
def execPopRm (x : RM16) (s : State) : Result := .next (s.pop16.2.writeOp16 (s.resolve x) s.pop16.1)

/-- POP sreg (R211): the stack is read through the old SS. -/
def execPopSreg (sr : SReg) (s : State) : Result := .next (s.pop16.2.setSReg sr s.pop16.1)

/-- XCHG r, r/m (R212): the register is written first, then the operand. -/
def execXchgRm (f : XchgForm) (s : State) : Result :=
  match f with
  | .reg8Rm8 r x => .next ((s.setReg8 r (s.readRM8 x)).writeOp8 (s.resolve x) (s.reg8 r))
  | .reg16Rm16 r x => .next ((s.setReg16 r (s.readRM16 x)).writeOp16 (s.resolve x) (s.reg16 r))

/-- XCHG AX, r16 (R213). -/
def execXchgAx (r : Reg16) (s : State) : Result :=
  .next ((s.setReg16 .ax (s.reg16 r)).setReg16 r (s.reg16 .ax))

/-- AL from a port: the handler runs, then AL is written (R214, R586). -/
def State.inByte (s : State) (port : Word) : State := (s.portIn8 port).2.setReg8 .al (s.portIn8 port).1

/-- AX from a port (R214). -/
def State.inWord (s : State) (port : Word) : State := (s.portIn16 port).2.setReg16 .ax (s.portIn16 port).1

/-- IN (R214). -/
def execInPort (f : PortForm) (s : State) : Result :=
  match f with
  | .byteImm p => .next (s.inByte (zext16 p))
  | .wordImm p => .next (s.inWord (zext16 p))
  | .byteDx => .next (s.inByte (s.reg16 .dx))
  | .wordDx => .next (s.inWord (s.reg16 .dx))

/-- OUT (R215). -/
def execOutPort (f : PortForm) (s : State) : Result :=
  match f with
  | .byteImm p => .next (s.portOut8 (zext16 p) (s.reg8 .al))
  | .wordImm p => .next (s.portOut16 (zext16 p) (s.reg16 .ax))
  | .byteDx => .next (s.portOut8 (s.reg16 .dx) (s.reg8 .al))
  | .wordDx => .next (s.portOut16 (s.reg16 .dx) (s.reg16 .ax))

/-- XLAT (R216). -/
def execXlat (s : State) : Result :=
  .next (s.setReg8 .al (s.readByte (s.segFor .ds) (s.reg16 .bx + zext16 (s.reg8 .al))))

/-- LEA (R217): the offset itself, no access. -/
def execLea (r : Reg16) (m : MemOp) (s : State) : Result := .next (s.setReg16 r (s.ea m))

/-- LDS (R218): both words are read before either register is written. -/
def execLds (r : Reg16) (m : MemOp) (s : State) : Result :=
  .next ((s.setReg16 r (s.readFar m).1).setSReg .ds (s.readFar m).2)

/-- LES (R219). -/
def execLes (r : Reg16) (m : MemOp) (s : State) : Result :=
  .next ((s.setReg16 r (s.readFar m).1).setSReg .es (s.readFar m).2)

/-- LAHF (R220). -/
def execLahf (s : State) : Result := .next (s.setReg8 .ah (loByte s.flagsImage))

/-- SAHF (R221): SF, ZF, AF, PF, CF only. -/
def execSahf (s : State) : Result :=
  let h := s.reg8 .ah
  .next (s.applyFlags { FlagEffect.none with
    sf := .set (h.getLsbD 7)
    zf := .set (h.getLsbD 6)
    af := .set (h.getLsbD 4)
    pf := .set (h.getLsbD 2)
    cf := .set (h.getLsbD 0) })

/-- PUSHF (R222). -/
def execPushf (s : State) : Result := .next (s.push16 s.flagsImage)

/-- POPF (R223). -/
def execPopf (s : State) : Result := .next (s.pop16.2.setFlagsFromImage s.pop16.1)

end Sys2Proof.Machine
end

