-- ==== Sys2Proof/Machine/Ext80186.lean ====
section
/-! DEFINITION. The meanings of the stack and bounds instructions of the 80186 level, `47_ext_80186.md`. Its IMUL stands in
`Arith.lean`, its shifts in `Logic.lean`, its INS and OUTS in `Strings.lean`. -/

namespace Sys2Proof.Machine

open Sys2Proof

/-- PUSHA (R481): the SP pushed is the one before the first push. -/
def execPusha (s : State) : Result :=
  let t := s.reg16 .sp
  .next ((((((((s.push16 (s.reg16 .ax)).push16 (s.reg16 .cx)).push16 (s.reg16 .dx)).push16 (s.reg16 .bx)).push16 t).push16
    (s.reg16 .bp)).push16 (s.reg16 .si)).push16 (s.reg16 .di))

/-- `R16[r] <- Pop16()`. -/
def State.popInto (s : State) (r : Reg16) : State := s.pop16.2.setReg16 r s.pop16.1

/-- POPA (R482): the saved SP is read and discarded. -/
def execPopa (s : State) : Result :=
  .next ((((((((s.popInto .di).popInto .si).popInto .bp).pop16.2).popInto .bx).popInto .dx).popInto .cx).popInto .ax)

/-- BOUND (R483): inclusive signed bounds; out of them IP goes back to IP0 and vector 5 is raised. -/
def execBound (r : Reg16) (m : MemOp) (s : State) : Result :=
  let i := (s.reg16 r).toInt
  if i < (s.readFar m).1.toInt ∨ (s.readFar m).2.toInt < i then .next ((s.setIp s.ip0).raiseInterrupt 5#8)
  else .next s

/-- PUSH imm16 (R484). -/
def execPushImm16 (i : Word) (s : State) : Result := .next (s.push16 i)

/-- PUSH imm8, sign-extended (R485). -/
def execPushImm8 (i : Byte) (s : State) : Result := .next (s.push16 (sext16 i))

/-- `repeat n times: BP <- (BP - 2) mod 2^16; Push16(MemRead(SS:BP, 2))` (R491). -/
def enterLoop : Nat → State → State
  | 0, s => s
  | n + 1, s =>
    let s1 := s.setReg16 .bp (s.reg16 .bp - 2#16)
    enterLoop n (s1.push16 (s1.readWord (s1.sreg .ss) (s1.reg16 .bp)))

/-- ENTER (R491): the level is taken modulo 32. -/
def execEnter (size : Word) (level : Byte) (s : State) : Result :=
  let l := level.toNat % 32
  let s1 := s.push16 (s.reg16 .bp)
  let frame := s1.reg16 .sp
  let s2 := if l = 0 then s1 else (enterLoop (l - 1) s1).push16 frame
  let s3 := s2.setReg16 .bp frame
  .next (s3.setReg16 .sp (s3.reg16 .sp - size))

/-- LEAVE (R492). -/
def execLeave (s : State) : Result :=
  let s1 := s.setReg16 .sp (s.reg16 .bp)
  .next (s1.pop16.2.setReg16 .bp s1.pop16.1)

end Sys2Proof.Machine
end

