-- ==== Sys2Proof/Machine/Logic.lean ====
section
/-! DEFINITION. The meanings of the logic, shift and rotate instructions, `43_logic_shift.md`, with the immediate counts of
the 80186 level (R490). -/

namespace Sys2Proof.Machine

open Sys2Proof

/-- AND (R320). -/
def execAnd (f : AluForm) (s : State) : Result := .next (s.alu aluAnd f)

/-- OR (R321). -/
def execOr (f : AluForm) (s : State) : Result := .next (s.alu aluOr f)

/-- XOR (R322). -/
def execXor (f : AluForm) (s : State) : Result := .next (s.alu aluXor f)

/-- TEST (R323): AND's flags, nothing written. -/
def execTest (f : TestForm) (s : State) : Result :=
  match f with
  | .rm8Reg8 x r => .next (s.aluFlags8 aluAnd (s.readRM8 x) (s.reg8 r))
  | .rm16Reg16 x r => .next (s.aluFlags16 aluAnd (s.readRM16 x) (s.reg16 r))
  | .alImm8 i => .next (s.aluFlags8 aluAnd (s.reg8 .al) i)
  | .axImm16 i => .next (s.aluFlags16 aluAnd (s.reg16 .ax) i)
  | .rm8Imm8 x i => .next (s.aluFlags8 aluAnd (s.readRM8 x) i)
  | .rm16Imm16 x i => .next (s.aluFlags16 aluAnd (s.readRM16 x) i)

/-- NOT (R324): no flag changes. -/
def execNot (f : UnaryForm) (s : State) : Result :=
  match f with
  | .rm8 x => .next (s.writeOp8 (s.resolve x) (~~~ s.readRM8 x))
  | .rm16 x => .next (s.writeOp16 (s.resolve x) (~~~ s.readRM16 x))

/-- SHL / SAL (R332). -/
def execShl (f : ShiftForm) (s : State) : Result := .next (s.shift shlN f)

/-- SHR (R333). -/
def execShr (f : ShiftForm) (s : State) : Result := .next (s.shift shrN f)

/-- SAR (R334). -/
def execSar (f : ShiftForm) (s : State) : Result := .next (s.shift sarN f)

/-- ROL (R335). -/
def execRol (f : ShiftForm) (s : State) : Result := .next (s.shift rolN f)

/-- ROR (R336). -/
def execRor (f : ShiftForm) (s : State) : Result := .next (s.shift rorN f)

/-- RCL (R337). -/
def execRcl (f : ShiftForm) (s : State) : Result := .next (s.shift rclN f)

/-- RCR (R338). -/
def execRcr (f : ShiftForm) (s : State) : Result := .next (s.shift rcrN f)

end Sys2Proof.Machine
end

