-- ==== Sys2Proof/Machine/Processor.lean ====
section
/-! DEFINITION. The meanings of the processor control instructions and of the seven prefix bytes, `46_processor_control.md`,
and of the fault rows of the table (R121, R123). -/

namespace Sys2Proof.Machine

open Sys2Proof

/-- CLC (R450). -/
def execClc (s : State) : Result := .next { s with flags := { s.flags with cf := false } }

/-- STC (R451). -/
def execStc (s : State) : Result := .next { s with flags := { s.flags with cf := true } }

/-- CMC (R452). -/
def execCmc (s : State) : Result := .next { s with flags := { s.flags with cf := !s.flags.cf } }

/-- CLD (R453). -/
def execCld (s : State) : Result := .next { s with flags := { s.flags with df := false } }

/-- STD (R454). -/
def execStd (s : State) : Result := .next { s with flags := { s.flags with df := true } }

/-- CLI (R455). -/
def execCli (s : State) : Result := .next { s with flags := { s.flags with iflag := false } }

/-- STI (R456). -/
def execSti (s : State) : Result := .next { s with flags := { s.flags with iflag := true } }

/-- HLT (R457): the driver is Halted unless the check at the end of the pass services an interrupt (`State.endPass`). -/
def execHlt (s : State) : Result := .next { s with driver := .halted }

/-- WAIT: nothing (R458). -/
def execWait (s : State) : Result := .next s

/-- NOP: nothing (R460). -/
def execNop (s : State) : Result := .next s

/-- ESC: its ModRM operand is decoded and not used (R461). -/
def execEsc (_n _reg : BitVec 3) (_x : RM16) (s : State) : Result := .next s

/-- A segment override: the last one wins (R104, R462). -/
def State.recordSeg (s : State) (r : SReg) : State := { s with pfx := { s.pfx with seg := some r } }

/-- A repeat prefix: the last one wins (R104, R463). -/
def State.recordRep (s : State) (k : RepKind) : State := { s with pfx := { s.pfx with rep := some k } }

/-- ES: prefix, 26h (R462). -/
def execSegEs (s : State) : Result := .next (s.recordSeg .es)

/-- CS: prefix, 2Eh (R462). -/
def execSegCs (s : State) : Result := .next (s.recordSeg .cs)

/-- SS: prefix, 36h (R462). -/
def execSegSs (s : State) : Result := .next (s.recordSeg .ss)

/-- DS: prefix, 3Eh (R462). -/
def execSegDs (s : State) : Result := .next (s.recordSeg .ds)

/-- LOCK prefix, F0h: recorded, and read by no instruction (R459). -/
def execLock (s : State) : Result := .next { s with pfx := { s.pfx with lock := true } }

/-- REPNE prefix, F2h (R463). -/
def execRepne (s : State) : Result := .next (s.recordRep .repne)

/-- REP / REPE prefix, F3h (R463). -/
def execRep (s : State) : Result := .next (s.recordRep .repe)

/-- An unrecognized opcode byte: the driver's fault sequence (R121, R151). -/
def execUnrecognized (op : Byte) (s : State) : Result :=
  .next (s.takeFault (.unrecognizedOpcode s.cs0 s.ip0 op))

/-- A faulting ModRM byte: the driver's fault sequence; the record holds the ModRM byte (R123, R150). -/
def execDecodeFault (_op modrm : Byte) (s : State) : Result :=
  .next (s.takeFault (.decodeFault s.cs0 s.ip0 modrm))

end Sys2Proof.Machine
end

