-- ==== Sys2Proof/Machine/Strings.lean ====
section
/-! DEFINITION. The meanings of the string instructions, `44_string.md`, and of the 80186 level's INS and OUTS (R488, R489).
Each is its one-element body under the shared repetition `State.stringOp` (R361). -/

namespace Sys2Proof.Machine

open Sys2Proof

/-- One element of MOVSB (R362). -/
def movsbBody (s : State) : State := ((s.storeByte s.srcByte).stepSi 1#16).stepDi 1#16
/-- One element of MOVSW (R362). -/
def movswBody (s : State) : State := ((s.storeWord s.srcWord).stepSi 2#16).stepDi 2#16
/-- One element of CMPSB: source minus destination (R363). -/
def cmpsbBody (s : State) : State := ((s.aluFlags8 aluSub s.srcByte s.dstByte).stepSi 1#16).stepDi 1#16
/-- One element of CMPSW (R363). -/
def cmpswBody (s : State) : State := ((s.aluFlags16 aluSub s.srcWord s.dstWord).stepSi 2#16).stepDi 2#16
/-- One element of SCASB: AL minus destination (R364). -/
def scasbBody (s : State) : State := (s.aluFlags8 aluSub (s.reg8 .al) s.dstByte).stepDi 1#16
/-- One element of SCASW (R364). -/
def scaswBody (s : State) : State := (s.aluFlags16 aluSub (s.reg16 .ax) s.dstWord).stepDi 2#16
/-- One element of LODSB (R365). -/
def lodsbBody (s : State) : State := (s.setReg8 .al s.srcByte).stepSi 1#16
/-- One element of LODSW (R365). -/
def lodswBody (s : State) : State := (s.setReg16 .ax s.srcWord).stepSi 2#16
/-- One element of STOSB (R366). -/
def stosbBody (s : State) : State := (s.storeByte (s.reg8 .al)).stepDi 1#16
/-- One element of STOSW (R366). -/
def stoswBody (s : State) : State := (s.storeWord (s.reg16 .ax)).stepDi 2#16
/-- One element of INSB (R488). -/
def insbBody (s : State) : State :=
  let r := s.portIn8 (s.reg16 .dx)
  (r.2.storeByte r.1).stepDi 1#16
/-- One element of INSW (R488). -/
def inswBody (s : State) : State :=
  let r := s.portIn16 (s.reg16 .dx)
  (r.2.storeWord r.1).stepDi 2#16
/-- One element of OUTSB (R489). -/
def outsbBody (s : State) : State := (s.portOut8 (s.reg16 .dx) s.srcByte).stepSi 1#16
/-- One element of OUTSW (R489). -/
def outswBody (s : State) : State := (s.portOut16 (s.reg16 .dx) s.srcWord).stepSi 2#16

/-- MOVSB (R362). -/
def execMovsb (s : State) : Result := .next (s.stringOp false movsbBody)
/-- MOVSW (R362). -/
def execMovsw (s : State) : Result := .next (s.stringOp false movswBody)
/-- CMPSB (R363). -/
def execCmpsb (s : State) : Result := .next (s.stringOp true cmpsbBody)
/-- CMPSW (R363). -/
def execCmpsw (s : State) : Result := .next (s.stringOp true cmpswBody)
/-- SCASB (R364). -/
def execScasb (s : State) : Result := .next (s.stringOp true scasbBody)
/-- SCASW (R364). -/
def execScasw (s : State) : Result := .next (s.stringOp true scaswBody)
/-- LODSB (R365). -/
def execLodsb (s : State) : Result := .next (s.stringOp false lodsbBody)
/-- LODSW (R365). -/
def execLodsw (s : State) : Result := .next (s.stringOp false lodswBody)
/-- STOSB (R366). -/
def execStosb (s : State) : Result := .next (s.stringOp false stosbBody)
/-- STOSW (R366). -/
def execStosw (s : State) : Result := .next (s.stringOp false stoswBody)
/-- INSB (R488). -/
def execInsb (s : State) : Result := .next (s.stringOp false insbBody)
/-- INSW (R488). -/
def execInsw (s : State) : Result := .next (s.stringOp false inswBody)
/-- OUTSB (R489). -/
def execOutsb (s : State) : Result := .next (s.stringOp false outsbBody)
/-- OUTSW (R489). -/
def execOutsw (s : State) : Result := .next (s.stringOp false outswBody)

end Sys2Proof.Machine
end

