-- ==== Sys2Proof/Machine/Dispatch.lean ====
section
/-! DEFINITION. The dispatch: one arm for each constructor of `Instr`, one direct call of its meaning. -/

namespace Sys2Proof.Machine

open Sys2Proof

def exec (i : Instr) (s : State) : Host.Outcome State Fault Refusal :=
  match i with
  | .movRmReg f => Sys2Proof.Machine.execMovRmReg f s
  | .movRmImm f => Sys2Proof.Machine.execMovRmImm f s
  | .movRegImm f => Sys2Proof.Machine.execMovRegImm f s
  | .movMoffs f => Sys2Proof.Machine.execMovMoffs f s
  | .movRmSreg x sr => Sys2Proof.Machine.execMovRmSreg x sr s
  | .movSregRm sr x => Sys2Proof.Machine.execMovSregRm sr x s
  | .pushReg r => Sys2Proof.Machine.execPushReg r s
  | .pushRm x => Sys2Proof.Machine.execPushRm x s
  | .pushSreg sr => Sys2Proof.Machine.execPushSreg sr s
  | .popReg r => Sys2Proof.Machine.execPopReg r s
  | .popRm x => Sys2Proof.Machine.execPopRm x s
  | .popSreg sr => Sys2Proof.Machine.execPopSreg sr s
  | .xchgRm f => Sys2Proof.Machine.execXchgRm f s
  | .xchgAx r => Sys2Proof.Machine.execXchgAx r s
  | .inPort f => Sys2Proof.Machine.execInPort f s
  | .outPort f => Sys2Proof.Machine.execOutPort f s
  | .xlat => Sys2Proof.Machine.execXlat s
  | .lea r m => Sys2Proof.Machine.execLea r m s
  | .lds r m => Sys2Proof.Machine.execLds r m s
  | .les r m => Sys2Proof.Machine.execLes r m s
  | .lahf => Sys2Proof.Machine.execLahf s
  | .sahf => Sys2Proof.Machine.execSahf s
  | .pushf => Sys2Proof.Machine.execPushf s
  | .popf => Sys2Proof.Machine.execPopf s
  | .add f => Sys2Proof.Machine.execAdd f s
  | .adc f => Sys2Proof.Machine.execAdc f s
  | .sub f => Sys2Proof.Machine.execSub f s
  | .sbb f => Sys2Proof.Machine.execSbb f s
  | .cmp f => Sys2Proof.Machine.execCmp f s
  | .inc f => Sys2Proof.Machine.execInc f s
  | .dec f => Sys2Proof.Machine.execDec f s
  | .neg f => Sys2Proof.Machine.execNeg f s
  | .mul f => Sys2Proof.Machine.execMul f s
  | .imul f => Sys2Proof.Machine.execImul f s
  | .div f => Sys2Proof.Machine.execDiv f s
  | .idiv f => Sys2Proof.Machine.execIdiv f s
  | .daa => Sys2Proof.Machine.execDaa s
  | .das => Sys2Proof.Machine.execDas s
  | .aaa => Sys2Proof.Machine.execAaa s
  | .aas => Sys2Proof.Machine.execAas s
  | .aam base => Sys2Proof.Machine.execAam base s
  | .aad base => Sys2Proof.Machine.execAad base s
  | .cbw => Sys2Proof.Machine.execCbw s
  | .cwd => Sys2Proof.Machine.execCwd s
  | .and f => Sys2Proof.Machine.execAnd f s
  | .or f => Sys2Proof.Machine.execOr f s
  | .xor f => Sys2Proof.Machine.execXor f s
  | .test f => Sys2Proof.Machine.execTest f s
  | .not f => Sys2Proof.Machine.execNot f s
  | .shl f => Sys2Proof.Machine.execShl f s
  | .shr f => Sys2Proof.Machine.execShr f s
  | .sar f => Sys2Proof.Machine.execSar f s
  | .rol f => Sys2Proof.Machine.execRol f s
  | .ror f => Sys2Proof.Machine.execRor f s
  | .rcl f => Sys2Proof.Machine.execRcl f s
  | .rcr f => Sys2Proof.Machine.execRcr f s
  | .movsb => Sys2Proof.Machine.execMovsb s
  | .movsw => Sys2Proof.Machine.execMovsw s
  | .cmpsb => Sys2Proof.Machine.execCmpsb s
  | .cmpsw => Sys2Proof.Machine.execCmpsw s
  | .scasb => Sys2Proof.Machine.execScasb s
  | .scasw => Sys2Proof.Machine.execScasw s
  | .lodsb => Sys2Proof.Machine.execLodsb s
  | .lodsw => Sys2Proof.Machine.execLodsw s
  | .stosb => Sys2Proof.Machine.execStosb s
  | .stosw => Sys2Proof.Machine.execStosw s
  | .jmpShort d => Sys2Proof.Machine.execJmpShort d s
  | .jmpNear d => Sys2Proof.Machine.execJmpNear d s
  | .jmpRm x => Sys2Proof.Machine.execJmpRm x s
  | .jmpFar off sg => Sys2Proof.Machine.execJmpFar off sg s
  | .jmpMemFar m => Sys2Proof.Machine.execJmpMemFar m s
  | .callNear d => Sys2Proof.Machine.execCallNear d s
  | .callRm x => Sys2Proof.Machine.execCallRm x s
  | .callFar off sg => Sys2Proof.Machine.execCallFar off sg s
  | .callMemFar m => Sys2Proof.Machine.execCallMemFar m s
  | .ret => Sys2Proof.Machine.execRet s
  | .retImm k => Sys2Proof.Machine.execRetImm k s
  | .retf => Sys2Proof.Machine.execRetf s
  | .retfImm k => Sys2Proof.Machine.execRetfImm k s
  | .jo d => Sys2Proof.Machine.execJo d s
  | .jno d => Sys2Proof.Machine.execJno d s
  | .jb d => Sys2Proof.Machine.execJb d s
  | .jae d => Sys2Proof.Machine.execJae d s
  | .je d => Sys2Proof.Machine.execJe d s
  | .jne d => Sys2Proof.Machine.execJne d s
  | .jbe d => Sys2Proof.Machine.execJbe d s
  | .ja d => Sys2Proof.Machine.execJa d s
  | .js d => Sys2Proof.Machine.execJs d s
  | .jns d => Sys2Proof.Machine.execJns d s
  | .jp d => Sys2Proof.Machine.execJp d s
  | .jnp d => Sys2Proof.Machine.execJnp d s
  | .jl d => Sys2Proof.Machine.execJl d s
  | .jge d => Sys2Proof.Machine.execJge d s
  | .jle d => Sys2Proof.Machine.execJle d s
  | .jg d => Sys2Proof.Machine.execJg d s
  | .loop d => Sys2Proof.Machine.execLoop d s
  | .loopz d => Sys2Proof.Machine.execLoopz d s
  | .loopnz d => Sys2Proof.Machine.execLoopnz d s
  | .jcxz d => Sys2Proof.Machine.execJcxz d s
  | .int n => Sys2Proof.Machine.execInt n s
  | .int3 => Sys2Proof.Machine.execInt3 s
  | .into => Sys2Proof.Machine.execInto s
  | .iret => Sys2Proof.Machine.execIret s
  | .clc => Sys2Proof.Machine.execClc s
  | .stc => Sys2Proof.Machine.execStc s
  | .cmc => Sys2Proof.Machine.execCmc s
  | .cld => Sys2Proof.Machine.execCld s
  | .std => Sys2Proof.Machine.execStd s
  | .cli => Sys2Proof.Machine.execCli s
  | .sti => Sys2Proof.Machine.execSti s
  | .hlt => Sys2Proof.Machine.execHlt s
  | .wait => Sys2Proof.Machine.execWait s
  | .nop => Sys2Proof.Machine.execNop s
  | .esc n reg x => Sys2Proof.Machine.execEsc n reg x s
  | .segEs => Sys2Proof.Machine.execSegEs s
  | .segCs => Sys2Proof.Machine.execSegCs s
  | .segSs => Sys2Proof.Machine.execSegSs s
  | .segDs => Sys2Proof.Machine.execSegDs s
  | .lock => Sys2Proof.Machine.execLock s
  | .repne => Sys2Proof.Machine.execRepne s
  | .rep => Sys2Proof.Machine.execRep s
  | .pusha => Sys2Proof.Machine.execPusha s
  | .popa => Sys2Proof.Machine.execPopa s
  | .bound r m => Sys2Proof.Machine.execBound r m s
  | .pushImm16 imm => Sys2Proof.Machine.execPushImm16 imm s
  | .pushImm8 imm => Sys2Proof.Machine.execPushImm8 imm s
  | .imulImm16 r x imm => Sys2Proof.Machine.execImulImm16 r x imm s
  | .imulImm8 r x imm => Sys2Proof.Machine.execImulImm8 r x imm s
  | .insb => Sys2Proof.Machine.execInsb s
  | .insw => Sys2Proof.Machine.execInsw s
  | .outsb => Sys2Proof.Machine.execOutsb s
  | .outsw => Sys2Proof.Machine.execOutsw s
  | .enter size level => Sys2Proof.Machine.execEnter size level s
  | .leave => Sys2Proof.Machine.execLeave s
  | .unrecognized op => Sys2Proof.Machine.execUnrecognized op s
  | .decodeFault op modrm => Sys2Proof.Machine.execDecodeFault op modrm s

end Sys2Proof.Machine
end

