-- ==== Sys2Proof/Machine/Driver.lean ====
section
/-! DEFINITION. The execution driver (section 1 of `40_fetch_decode_resolver.md`): the fetch, the loop over prefix bytes, the
dispatch and the end of a pass. `step` (`Machine/Step.lean`) only calls these. -/

namespace Sys2Proof.Machine

open Sys2Proof

/-- `MemRead(CS:(IP + k), 1)`: the `k`-th byte from the instruction pointer, `IP + k` modulo 2^16 (R14, R28). -/
def State.fetchByte (s : State) (k : Nat) : Byte := s.readByte (s.sreg .cs) (s.ip + BitVec.ofNat 16 k)

/-- The instruction whose first byte is at `CS:IP`, and its length; all its bytes are read before it acts (R149). DEDUCED
(log 10): the spec fetches byte by byte, and nothing between the fetches can change a byte. -/
def State.decodeNext (s : State) : Instr × Nat := decode s.cfg.isaLevel s.fetchByte

/-- `IP` moved past `n` bytes, modulo 2^16 (R28). -/
def State.advance (s : State) (n : Nat) : State := s.setIp (s.ip + BitVec.ofNat 16 n)

/-- Leaving Idle: CS and `IP0` recorded, Prefix State cleared (R141). -/
def State.leaveIdle (s : State) : State :=
  { s with cs0 := s.sreg .cs, ip0 := s.ip, pfx := PrefixState.empty, driver := .fetchPrefixes }

/-- Dispatch: the driver leaves FetchPrefixes, and `IP = IPnext` (R145, R146). -/
def State.toDispatch (s : State) (n : Nat) : State := { s.advance n with driver := .dispatch }

/-- FetchPrefixes and Dispatch (R142, R145): a prefix byte is recorded and the loop goes on; any other instruction is
executed. `fuel` bounds the prefix bytes: 65536 of them in a row are the whole code segment, and the loop would not end
(R144, R584, log 9). -/
def runPass : Nat → State → Result
  | 0, _ => .fault .endlessPrefixes
  | fuel + 1, s =>
    let d := s.decodeNext
    if d.1.isPrefix then
      match exec d.1 (s.advance d.2) with
      | .next s1 => runPass fuel s1
      | .fault r => .fault r
      | .refused r => .refused r
    else exec d.1 (s.toDispatch d.2)

/-- `CheckHardInt()` (R531): the slot is cleared before the handler runs; a serviced interrupt leaves Halted. -/
def State.checkHardInt (s : State) : State :=
  match s.pending with
  | none => s
  | some n =>
    if s.flags.iflag || !s.cfg.hardintGatedByIf then
      { ({ s with pending := none } : State).raiseInterrupt n with driver := .idle }
    else s

/-- The interrupts of an instruction boundary, in order: single-step, then the pending slot (R148, R533, R535). `tf0` is TF
when the pass left Idle. -/
def State.boundary (tf0 : Bool) (s : State) : State :=
  (if s.cfg.tfSingleStep && tf0 then s.raiseInterrupt 1#8 else s).checkHardInt

/-- The end of a pass: Prefix State cleared (R147); after a fault nothing more, the driver being in Fault, or Idle under
`FAULT_POLICY = skip` (R150, R151); else the interrupts, and then Halted if the instruction was HLT and no hardware interrupt
was serviced, else Idle (R148). -/
def State.endPass (tf0 : Bool) (s : State) : State :=
  let s1 := { s with pfx := PrefixState.empty }
  match s1.driver with
  | .fault | .idle => s1
  | .halted => s1.boundary tf0
  | .dispatch | .fetchPrefixes => { s1.boundary tf0 with driver := .idle }

/-- One pass from Idle: one instruction (R140, R153). -/
def State.pass (s : State) : Result :=
  match runPass 65536 s.leaveIdle with
  | .next s1 => .next (s1.endPass s.flags.tf)
  | .fault r => .fault r
  | .refused r => .refused r

end Sys2Proof.Machine
end

