-- ==== Sys2Proof/Machine/Step.lean ====
section
/-! DEFINITION. One step is one pass of the execution driver (R140, R153). -/

namespace Sys2Proof.Machine

open Sys2Proof

/-- `Pass()` (R153): in Fault nothing, in Halted the check for a hardware interrupt, else one instruction. A state that is
not at an instruction boundary is treated as Idle (log 8). -/
def step (s : State) : Host.Outcome State Fault Refusal :=
  match s.driver with
  | .fault => .next s
  | .halted => .next s.checkHardInt
  | .idle | .fetchPrefixes | .dispatch => s.pass

/-- Bytes written one after the other from an offset on, modulo 2^16, in one segment. -/
def State.storeBytes (s : State) (sg : Word) : Word → List Byte → State
  | _, [] => s
  | off, b :: l => (s.writeByte sg off b).storeBytes sg (off + 1#16) l

/-- The state whose next pass executes the table word: its bytes and zeros up to eight bytes at `CS:IP`, the driver Idle,
and the 80186 level if the word is unrecognized at the 8086 level (log 11, log 12, log 18). -/
def State.withFetchWord (s : State) (nbits w : Nat) : State :=
  let s1 := s.storeBytes (s.sreg .cs) s.ip ((tableBytes nbits w ++ List.replicate 8 0#8).take 8)
  let s2 := { s1 with driver := .idle }
  match tableLevel nbits w with
  | .i8086 => s2
  | .i80186 => { s2 with cfg := { s2.cfg with isaLevel := .i80186 } }

end Sys2Proof.Machine
end

