-- ==== Sys2Proof/Machine/Environment.lean ====
section
/-! DEFINITION. What the environment may do to the machine between two passes (R34, R35, R36, R72, R570): set and clear the
pending slot, install handlers, reset. None of it is done by `step` (log 16). -/

namespace Sys2Proof.Machine

open Sys2Proof

/-- Set the pending slot; a vector already there is overwritten (R34, R532). -/
def State.setPending (s : State) (n : Byte) : State := { s with pending := some n }

/-- Clear the pending slot (R34). -/
def State.clearPending (s : State) : State := { s with pending := none }

/-- `install(vector, handler)` (R35). -/
def State.installInt (s : State) (n : Byte) (h : IntHandler) : State :=
  { s with intTable := insert s.intTable n.toNat h }

/-- `install(port, readHandler, writeHandler)` (R36). -/
def State.installPort (s : State) (port : Word) (e : PortEntry) : State :=
  { s with portTable := insert s.portTable port.toNat e }

/-- The reset event (R570): every item of the table of R42 takes its value; memory is not touched. The parameters stay, and
so does the count of free values (log 21). -/
def State.resetEvent (s : State) : State := { State.boot s.cfg s.mem with draws := s.draws }

end Sys2Proof.Machine
end

