-- ==== Sys2Proof/Safety.lean ====
section
/-! DEFINITION. What counts as a safe run: the invariant of the machine at an instruction boundary (R32, R33, R35, R36, R39,
R140), and a machine that no fault has been recorded of (R38, R154). Then the terms in which statements say what an
instruction changes and what it leaves (`Sys2Proof.Claims`). -/

namespace Sys2Proof.Machine

open Sys2Proof

/-- The driver is where it may be at an instruction boundary (R33, R140). -/
abbrev State.atBoundary (s : State) : Prop := s.driver = .idle ∨ s.driver = .halted ∨ s.driver = .fault

/-- The interrupt table has at most the 256 slots, each once (R35); the port table the 65536 ports (R36). -/
abbrev State.tablesWf (s : State) : Prop :=
  (Rising s.intTable ∧ ∀ e ∈ s.intTable, e.1 < 256) ∧ (Rising s.portTable ∧ ∀ e ∈ s.portTable, e.1 < 65536)

/-- The invariant: memory and tables in canonical form, the driver at a boundary, Prefix State empty (R32), the driver in
Fault only under `FAULT_POLICY = halt` (R33). -/
abbrev State.Inv (s : State) : Prop :=
  Memory.wf s.mem ∧ s.tablesWf ∧ s.atBoundary ∧ s.pfx = PrefixState.empty ∧
  (s.driver = .fault → s.cfg.faultPolicy = .halt)

/-- The record of a fault; the `Unmapped` records of `STRICT_DIAG` are not faults (R38). -/
def DiagRecord.isFault : DiagRecord → Bool
  | .decodeFault _ _ _ | .unrecognizedOpcode _ _ _ => true
  | .unmappedInterrupt _ _ _ | .unmappedPort _ _ _ => false

/-- No fault has been recorded (R38), and the driver is not in Fault (R154). -/
def State.faultFree (s : State) : Bool := s.driver != .fault && s.diag.all fun r => !r.isFault

/-- No handler of the environment is installed: every slot of the interrupt table is absent or the standard handler, and
every entry of the port table has no handler (R35, R36). -/
def State.noHostHandlers (s : State) : Prop :=
  (∀ e ∈ s.intTable, e.2 = .guestVector) ∧ ∀ e ∈ s.portTable, e.2 = ⟨none, none⟩

end Sys2Proof.Machine

namespace Sys2Proof.Claims

open Sys2Proof Sys2Proof.Machine

/-! ## Frames -/

/-- Nothing but general registers, segment registers, IP, flags, memory and the count of free values has changed. -/
def ControlSame (s t : State) : Prop :=
  t.pfx = s.pfx ∧ t.driver = s.driver ∧ t.cs0 = s.cs0 ∧ t.ip0 = s.ip0 ∧ t.pending = s.pending ∧
  t.intTable = s.intTable ∧ t.portTable = s.portTable ∧ t.diag = s.diag ∧ t.cfg = s.cfg

/-- Segment registers and IP are as before, too: only general registers, flags and memory may differ. -/
def OnlyData (s t : State) : Prop := t.sregs = s.sregs ∧ t.ip = s.ip ∧ ControlSame s t

/-- Every 16-bit register outside the list is as before. -/
def RegsSameBut (s t : State) (l : List Reg16) : Prop := ∀ r, r ∉ l → t.reg16 r = s.reg16 r

/-- Every segment register outside the list is as before. -/
def SRegsSameBut (s t : State) (l : List SReg) : Prop := ∀ r, r ∉ l → t.sreg r = s.sreg r

/-- Every byte of memory outside the listed physical addresses reads as before. -/
def MemSameBut (s t : State) (l : List Nat) : Prop :=
  ∀ sg off, phys sg off ∉ l → t.readByte sg off = s.readByte sg off

/-- The two physical addresses of the word at `sg:off` (R64, R65). -/
def wordAt (sg off : Word) : List Nat := [phys sg off, phys sg (off + 1#16)]

/-- TF, IF and DF are as before. -/
def ControlFlagsSame (s t : State) : Prop :=
  t.flags.tf = s.flags.tf ∧ t.flags.iflag = s.flags.iflag ∧ t.flags.df = s.flags.df

/-- Registers and memory are as before but for the byte operand `x`, located as it was in `s`, which now holds `v`. -/
def Writes8 (s t : State) (x : RM8) (v : Byte) : Prop :=
  match s.resolve x with
  | .reg r => t.reg8 r = v ∧ (∀ r1, r1 ≠ r → t.reg8 r1 = s.reg8 r1) ∧ RegsSameBut s t [parent r] ∧ MemSameBut s t []
  | .mem sg off => t.readByte sg off = v ∧ RegsSameBut s t [] ∧ MemSameBut s t [phys sg off]

/-- Registers and memory are as before but for the word operand `x`, located as it was in `s`, which now holds `v`. -/
def Writes16 (s t : State) (x : RM16) (v : Word) : Prop :=
  match s.resolve x with
  | .reg r => t.reg16 r = v ∧ RegsSameBut s t [r] ∧ MemSameBut s t []
  | .mem sg off => t.readWord sg off = v ∧ RegsSameBut s t [] ∧ MemSameBut s t (wordAt sg off)

/-- No register and no byte of memory has changed. -/
def WritesNothing (s t : State) : Prop := RegsSameBut s t [] ∧ MemSameBut s t []

/-! ## Operands of the forms -/

/-- What holds of the destination operand and the source value of a two-operand form, byte or word (R266). -/
def aluHolds (s : State) (p8 : RM8 → Byte → Prop) (p16 : RM16 → Word → Prop) : AluForm → Prop
  | .rm8Reg8 x r => p8 x (s.reg8 r)
  | .rm16Reg16 x r => p16 x (s.reg16 r)
  | .reg8Rm8 r x => p8 (.reg r) (s.readRM8 x)
  | .reg16Rm16 r x => p16 (.reg r) (s.readRM16 x)
  | .alImm8 i => p8 (.reg .al) i
  | .axImm16 i => p16 (.reg .ax) i
  | .rm8Imm8 x i => p8 x i
  | .rm16Imm16 x i => p16 x i
  | .rm8Imm8Alias x i => p8 x i
  | .rm16Imm8 x i => p16 x (i.signExtend 16)

/-- What holds of the operand and the second value of a form of TEST (R323). -/
def testHolds (s : State) (p8 : RM8 → Byte → Prop) (p16 : RM16 → Word → Prop) : TestForm → Prop
  | .rm8Reg8 x r => p8 x (s.reg8 r)
  | .rm16Reg16 x r => p16 x (s.reg16 r)
  | .alImm8 i => p8 (.reg .al) i
  | .axImm16 i => p16 (.reg .ax) i
  | .rm8Imm8 x i => p8 x i
  | .rm16Imm16 x i => p16 x i

/-- What holds of the operand of a unary-group form. -/
def unaryHolds (p8 : RM8 → Prop) (p16 : RM16 → Prop) : UnaryForm → Prop
  | .rm8 x => p8 x
  | .rm16 x => p16 x

/-- What holds of the operand of a form of INC or DEC (R275, R276). -/
def incHolds (p8 : RM8 → Prop) (p16 : RM16 → Prop) : IncForm → Prop
  | .reg16 r => p16 (.reg r)
  | .rm8 x => p8 x
  | .rm16 x => p16 x

/-- The count of CL as rule R331 takes it at an `ISA_LEVEL`. -/
def countOf (lvl : IsaLevel) (cl : Byte) : Nat :=
  match lvl with
  | .i8086 => cl.toNat
  | .i80186 => (cl &&& 0x1F#8).toNat

/-- What holds of the operand and the effective count of a shift or rotate form (R330, R331, R490). -/
def shiftHolds (s : State) (p8 : RM8 → Nat → Prop) (p16 : RM16 → Nat → Prop) : ShiftForm → Prop
  | .rm8One x => p8 x 1
  | .rm16One x => p16 x 1
  | .rm8Cl x => p8 x (countOf s.cfg.isaLevel (s.reg8 .cl))
  | .rm16Cl x => p16 x (countOf s.cfg.isaLevel (s.reg8 .cl))
  | .rm8Imm x i => p8 x (i &&& 0x1F#8).toNat
  | .rm16Imm x i => p16 x (i &&& 0x1F#8).toNat

/-! ## The stack -/

/-- The word `v` has been pushed (R175): SP is two less, the word stands at the new SS:SP, and nothing else of registers and
memory has changed. -/
def Pushed (s t : State) (v : Word) : Prop :=
  t.reg16 .sp = s.reg16 .sp - 2#16 ∧ RegsSameBut s t [.sp] ∧
  t.readWord (s.sreg .ss) (s.reg16 .sp - 2#16) = v ∧
  MemSameBut s t (wordAt (s.sreg .ss) (s.reg16 .sp - 2#16))

/-- The words of `l` have been pushed, the first one first (R175). -/
def PushedAll (s t : State) (l : List Word) : Prop :=
  t.reg16 .sp = s.reg16 .sp - BitVec.ofNat 16 (2 * l.length) ∧ RegsSameBut s t [.sp] ∧
  (∀ k (h : k < l.length), t.readWord (s.sreg .ss) (s.reg16 .sp - BitVec.ofNat 16 (2 * (k + 1))) = l[k]) ∧
  MemSameBut s t ((List.range l.length).flatMap fun k =>
    wordAt (s.sreg .ss) (s.reg16 .sp - BitVec.ofNat 16 (2 * (k + 1))))

/-- The word `k` words above the top of the stack: 0 is the word that `Pop16` returns (R176). -/
def stackWord (s : State) (k : Nat) : Word := s.readWord (s.sreg .ss) (s.reg16 .sp + BitVec.ofNat 16 (2 * k))

/-! ## Strings -/

/-- The step of an index register per element: its size, or the negative of it when DF is 1 (R360). -/
def elemStep (s : State) (size : Word) : Word := if s.flags.df = false then size else 0#16 - size

/-! ## Prefixes -/

/-- The override that a prefix byte records, if it is one (R104). -/
def segOf : Instr → Option SReg
  | .segEs => some .es
  | .segCs => some .cs
  | .segSs => some .ss
  | .segDs => some .ds
  | _ => none

/-- The repetition that a prefix byte records, if it is one (R104). -/
def repOf : Instr → Option RepKind
  | .rep => some .repe
  | .repne => some .repne
  | _ => none

/-- Prefix State after a list of prefix bytes: of each class the last one wins (R104, R143). -/
def collected (ps : List Instr) : PrefixState where
  seg  := ps.reverse.findSome? segOf
  rep  := ps.reverse.findSome? repOf
  lock := ps.any (· == .lock)

/-! ## Results and flags -/

/-- ZF, SF and PF of a result (R260, R261): PF is 1 when the low byte has an even number of 1 bits. -/
def Szp {w : Nat} (r : BitVec w) (f : Flags) : Prop :=
  (f.zf = true ↔ r = 0) ∧ f.sf = r.msb ∧
  (f.pf = true ↔ ((List.range 8).map fun i => (r.getLsbD i).toNat).sum % 2 = 0)

/-- The result and the six flags of `a + b + c` (R262). -/
def AddResult {w : Nat} (a b : BitVec w) (c : Bool) (r : BitVec w) (f : Flags) : Prop :=
  r.toNat = (a.toNat + b.toNat + c.toNat) % 2 ^ w ∧
  (f.cf = true ↔ 2 ^ w ≤ a.toNat + b.toNat + c.toNat) ∧
  (f.af = true ↔ 16 ≤ a.toNat % 16 + b.toNat % 16 + c.toNat) ∧
  (f.of = true ↔ a.toInt + b.toInt + c.toNat < -(2 ^ (w - 1) : Int) ∨ (2 ^ (w - 1) : Int) ≤ a.toInt + b.toInt + c.toNat) ∧
  Szp r f

/-- The result and the six flags of `a - b - c` (R263). -/
def SubResult {w : Nat} (a b : BitVec w) (c : Bool) (r : BitVec w) (f : Flags) : Prop :=
  (r.toNat : Int) = ((a.toNat : Int) - b.toNat - c.toNat) % (2 ^ w : Int) ∧
  (f.cf = true ↔ a.toNat < b.toNat + c.toNat) ∧
  (f.af = true ↔ a.toNat % 16 < b.toNat % 16 + c.toNat) ∧
  (f.of = true ↔ a.toInt - b.toInt - c.toNat < -(2 ^ (w - 1) : Int) ∨ (2 ^ (w - 1) : Int) ≤ a.toInt - b.toInt - c.toNat) ∧
  Szp r f

/-- The flags of a logical result, AF apart, which is free (R265). -/
def LogicFlags {w : Nat} (r : BitVec w) (f : Flags) : Prop := f.cf = false ∧ f.of = false ∧ Szp r f

end Sys2Proof.Claims
end

