-- ==== Sys2Proof/Certificates/Slice0/Obligations.lean ====
section
/-! DEFINITION. The statements for the provers. Each says in its docstring which rule of `spec/` it formalises. The words they
are written in (frames, operand forms, results) are `Sys2Proof.Claims` in `Safety.lean`. -/

open Sys2Proof Sys2Proof.Machine Sys2Proof.Claims

/-! ## State, memory, operands -/

/-- R24: the byte halves alias their parent; writing one leaves the other half and every other register. -/
def Obligations.RegisterHalvesAlias : Prop :=
  ∀ (s : State) (r : Reg8) (v : Byte),
    (s.setReg8 r v).reg8 r = v ∧ (∀ r1, r1 ≠ r → (s.setReg8 r v).reg8 r1 = s.reg8 r1) ∧
    RegsSameBut s (s.setReg8 r v) [parent r] ∧
    s.reg16 .ax = s.reg8 .ah ++ s.reg8 .al ∧ s.reg16 .cx = s.reg8 .ch ++ s.reg8 .cl ∧
    s.reg16 .dx = s.reg8 .dh ++ s.reg8 .dl ∧ s.reg16 .bx = s.reg8 .bh ++ s.reg8 .bl

/-- R61, R64, R65 (and R80, which the spec derives from them): what a physical address and a word in memory are; a word written
is read back, by bytes and as a word, and a byte elsewhere changes exactly when its physical address is one of the two written. -/
def Obligations.WordWriteThenRead : Prop :=
  ∀ (s : State) (sg off v : Word),
    (s.writeWord sg off v).readByte sg off = v.extractLsb' 0 8 ∧
    (s.writeWord sg off v).readByte sg (off + 1#16) = v.extractLsb' 8 8 ∧
    (s.writeWord sg off v).readWord sg off = v ∧
    s.readWord sg off = s.readByte sg (off + 1#16) ++ s.readByte sg off ∧ phys sg off ≠ phys sg (off + 1#16) ∧
    phys sg off = (sg.toNat * 16 + off.toNat) % 2 ^ 20 ∧
    ∀ sg2 off2 : Word,
      (phys sg2 off2 = phys sg off → (s.writeWord sg off v).readByte sg2 off2 = v.extractLsb' 0 8) ∧
      (phys sg2 off2 = phys sg (off + 1#16) → (s.writeWord sg off v).readByte sg2 off2 = v.extractLsb' 8 8) ∧
      (phys sg2 off2 ∉ wordAt sg off → (s.writeWord sg off v).readByte sg2 off2 = s.readByte sg2 off2)

/-- R160 to R163, R165: what a ModRM byte names: a register, or memory whose offset is the base sum of `rm` plus the
displacement modulo 2^16, through SS when the base has BP, else DS, unless an override is recorded. -/
def Obligations.ModRmNamesItsOperand : Prop :=
  ∀ (s : State) (m : Byte) (b : Nat → Byte),
    (modOf m = 3#2 →
      decodeRM Reg16.ofBits m b = (.reg (Reg16.ofBits (rmOf m)), 0) ∧
      decodeRM Reg8.ofBits m b = (.reg (Reg8.ofBits (rmOf m)), 0)) ∧
    (modOf m ≠ 3#2 →
      ∃ (op : MemOp) (n : Nat), decodeRM Reg16.ofBits m b = (.mem op, n) ∧ decodeRM Reg8.ofBits m b = (.mem op, n) ∧
        n = (if modOf m = 0#2 then (if rmOf m = 6#3 then 2 else 0) else if modOf m = 1#2 then 1 else 2) ∧
        s.ea op =
          (if modOf m = 0#2 ∧ rmOf m = 6#3 then b 1 ++ b 0
           else
            (match (rmOf m).toNat with
              | 0 => s.reg16 .bx + s.reg16 .si
              | 1 => s.reg16 .bx + s.reg16 .di
              | 2 => s.reg16 .bp + s.reg16 .si
              | 3 => s.reg16 .bp + s.reg16 .di
              | 4 => s.reg16 .si
              | 5 => s.reg16 .di
              | 6 => s.reg16 .bp
              | _ => s.reg16 .bx) +
            (if modOf m = 0#2 then 0#16 else if modOf m = 1#2 then (b 0).signExtend 16 else b 1 ++ b 0)) ∧
        s.memSeg op = s.sreg (s.pfx.seg.getD
          (if rmOf m = 2#3 ∨ rmOf m = 3#3 ∨ (rmOf m = 6#3 ∧ modOf m ≠ 0#2) then .ss else .ds)))

/-- R30: the image of the flags: its fixed bits, the place of each flag, and both round trips. -/
def Obligations.FlagsImageRoundTrips : Prop :=
  ∀ (f : Flags) (v : Word),
    f.image = 0xF002#16 ||| (f.cf.toNat : Word) ||| ((f.pf.toNat : Word) <<< 2) ||| ((f.af.toNat : Word) <<< 4) |||
      ((f.zf.toNat : Word) <<< 6) ||| ((f.sf.toNat : Word) <<< 7) ||| ((f.tf.toNat : Word) <<< 8) |||
      ((f.iflag.toNat : Word) <<< 9) ||| ((f.df.toNat : Word) <<< 10) ||| ((f.of.toNat : Word) <<< 11) ∧
    Flags.ofImage f.image = f ∧ (Flags.ofImage v).image = (v &&& 0x0FD5#16) ||| 0xF002#16

/-! ## Encoding -/

/-- Decoding the bytes of any well-formed instruction, whatever follows them, gives the instruction and its length. -/
def Obligations.DecodeOfEncode : Prop :=
  ∀ (lvl : IsaLevel) (i : Instr) (rest : List Byte), i.wf lvl = true →
    decode lvl (byteAt (encode i ++ rest)) = (i, (encode i).length)

/-- R105: every string of bytes is exactly one row: what is decoded is well formed, is 1 to 6 bytes long, and its encoding is
those bytes. -/
def Obligations.EncodeOfDecode : Prop :=
  ∀ (lvl : IsaLevel) (b : Nat → Byte),
    (decode lvl b).1.wf lvl = true ∧ 1 ≤ (decode lvl b).2 ∧ (decode lvl b).2 ≤ 6 ∧
    encode (decode lvl b).1 = (List.range (decode lvl b).2).map b

/-- R121: the bytes with no routine, 23 at the 8086 level and 8 at the 80186 level, and no others. -/
def Obligations.UnrecognizedBytesAreThese : Prop :=
  ∀ (b : Nat → Byte) (op : Byte),
    ((decode .i8086 b).1 = .unrecognized op ↔ op = b 0 ∧
      b 0 ∈ [0x0F#8, 0x60#8, 0x61#8, 0x62#8, 0x63#8, 0x64#8, 0x65#8, 0x66#8, 0x67#8, 0x68#8, 0x69#8, 0x6A#8, 0x6B#8,
        0x6C#8, 0x6D#8, 0x6E#8, 0x6F#8, 0xC0#8, 0xC1#8, 0xC8#8, 0xC9#8, 0xD6#8, 0xF1#8]) ∧
    ((decode .i80186 b).1 = .unrecognized op ↔ op = b 0 ∧
      b 0 ∈ [0x0F#8, 0x63#8, 0x64#8, 0x65#8, 0x66#8, 0x67#8, 0xD6#8, 0xF1#8])

/-- Byte strings of the spec's own examples (R200, R201, R203, R217, R270, R102, R393, R394, R428, R461, R485) decode to the
instructions they stand for. -/
def Obligations.ExampleBytesDecode : Prop :=
  decode .i8086 (byteAt [0x89#8, 0xD8#8]) = (.movRmReg (.rm16Reg16 (.reg .ax) .bx), 2) ∧
  decode .i8086 (byteAt [0x8B#8, 0x47#8, 0x02#8]) =
    (.movRmReg (.reg16Rm16 .ax (.mem (.based .bx (.disp8 0x02#8)))), 3) ∧
  decode .i8086 (byteAt [0xC7#8, 0x06#8, 0x00#8, 0x05#8, 0x34#8, 0x12#8]) =
    (.movRmImm (.rm16Imm16 (.mem (.direct 0x0500#16)) 0x1234#16), 6) ∧
  decode .i8086 (byteAt [0xA3#8, 0x00#8, 0x05#8]) = (.movMoffs (.moffsAx 0x0500#16), 3) ∧
  decode .i8086 (byteAt [0x8D#8, 0x47#8, 0x02#8]) = (.lea .ax (.based .bx (.disp8 0x02#8)), 3) ∧
  decode .i8086 (byteAt [0x04#8, 0x01#8]) = (.add (.alImm8 0x01#8), 2) ∧
  decode .i8086 (byteAt [0xD3#8, 0xE0#8]) = (.shl (.rm16Cl (.reg .ax)), 2) ∧
  decode .i8086 (byteAt [0xF3#8]) = (.rep, 1) ∧
  decode .i8086 (byteAt [0xA4#8]) = (.movsb, 1) ∧
  decode .i8086 (byteAt [0xFF#8, 0xE3#8]) = (.jmpRm (.reg .bx), 2) ∧
  decode .i8086 (byteAt [0xEA#8, 0x00#8, 0x7C#8, 0x00#8, 0x00#8]) = (.jmpFar 0x7C00#16 0x0000#16, 5) ∧
  decode .i8086 (byteAt [0xCF#8]) = (.iret, 1) ∧
  decode .i8086 (byteAt [0xD9#8, 0x06#8, 0x00#8, 0x05#8]) = (.esc 1#3 0#3 (.mem (.direct 0x0500#16)), 4) ∧
  decode .i8086 (byteAt [0x6A#8, 0xFF#8]) = (.unrecognized 0x6A#8, 1) ∧
  decode .i80186 (byteAt [0x6A#8, 0xFF#8]) = (.pushImm8 0xFF#8, 2) ∧
  decode .i8086 (byteAt [0xF6#8, 0x08#8]) = (.decodeFault 0xF6#8 0x08#8, 2)

/-! ## The driver -/

/-- R140, R145, R146, R148: where the bytes at CS:IP decode to an instruction that is no prefix byte, a step is `exec` of it,
with CS and IP recorded, Prefix State empty and IP past its bytes, and then the end of the pass. -/
def Obligations.StepRunsDecodedInstruction : Prop :=
  ∀ (s t : State) (i : Instr) (n : Nat),
    s.driver = .idle →
    decode s.cfg.isaLevel (fun k => s.readByte (s.sreg .cs) (s.ip + BitVec.ofNat 16 k)) = (i, n) →
    i.isPrefix = false →
    exec i { s with cs0 := s.sreg .cs, ip0 := s.ip, pfx := PrefixState.empty, driver := .dispatch,
                    ip := s.ip + BitVec.ofNat 16 n } = .next t →
    step s = .next (t.endPass s.flags.tf)

/-- R142, R143: prefix bytes in front of an instruction are collected, in each class the last one winning, IP moves past all
of them, and the instruction is executed with what they recorded. -/
def Obligations.PrefixBytesAreCollected : Prop :=
  ∀ (s t : State) (ps : List Instr) (i : Instr) (n : Nat),
    s.driver = .idle → ps.length < 65536 → (∀ p ∈ ps, p.isPrefix = true) →
    (∀ k (h : k < ps.length), (decode s.cfg.isaLevel
      (fun j => s.readByte (s.sreg .cs) (s.ip + BitVec.ofNat 16 (k + j)))).1 = ps[k]) →
    decode s.cfg.isaLevel (fun j => s.readByte (s.sreg .cs) (s.ip + BitVec.ofNat 16 (ps.length + j))) = (i, n) →
    i.isPrefix = false →
    exec i { s with cs0 := s.sreg .cs, ip0 := s.ip, pfx := collected ps, driver := .dispatch,
                    ip := s.ip + BitVec.ofNat 16 (ps.length + n) } = .next t →
    step s = .next (t.endPass s.flags.tf)

/-- R144, R584: the one stop of the model (log 9, the model's own name for the run that never ends): a step stops
exactly when the driver is neither in Fault nor Halted and all 65536 bytes of the code segment are prefix bytes, and it stops
with no other fault and no refusal. -/
def Obligations.OnlyEndlessPrefixesStop : Prop :=
  ∀ s : State,
    (step s = .fault .endlessPrefixes ↔ s.driver ≠ .fault ∧ s.driver ≠ .halted ∧
      ∀ off : Word, s.readByte (s.sreg .cs) off ∈ [0x26#8, 0x2E#8, 0x36#8, 0x3E#8, 0xF0#8, 0xF2#8, 0xF3#8]) ∧
    (step s = .fault .endlessPrefixes ∨ ∃ t, step s = .next t)

/-- R150, R151, R521, R522: an unrecognized opcode byte, or a faulting ModRM byte, at CS:IP: the record is appended, Prefix State
is empty, no interrupt is looked at, and by FAULT_POLICY the driver stays in Fault with IP at IP0, or is Idle with IP after the
opcode byte, or after the ModRM byte. The fault rows complete in every state, with prefixes in front too, and no register,
flag or byte of memory changes. -/
def Obligations.FaultedPassAndFaultRows : Prop :=
  (∀ (s : State) (op m : Byte) (n : Nat), s.driver = .idle →
      (decode s.cfg.isaLevel (fun k => s.readByte (s.sreg .cs) (s.ip + BitVec.ofNat 16 k)) = (.unrecognized op, n) →
        step s = .next { s with
          cs0 := s.sreg .cs, ip0 := s.ip, pfx := PrefixState.empty
          diag := s.diag ++ [.unrecognizedOpcode (s.sreg .cs) s.ip op]
          driver := if s.cfg.faultPolicy = .halt then .fault else .idle
          ip := if s.cfg.faultPolicy = .halt then s.ip else s.ip + 1#16 }) ∧
      (decode s.cfg.isaLevel (fun k => s.readByte (s.sreg .cs) (s.ip + BitVec.ofNat 16 k)) = (.decodeFault op m, n) →
        step s = .next { s with
          cs0 := s.sreg .cs, ip0 := s.ip, pfx := PrefixState.empty
          diag := s.diag ++ [.decodeFault (s.sreg .cs) s.ip m]
          driver := if s.cfg.faultPolicy = .halt then .fault else .idle
          ip := if s.cfg.faultPolicy = .halt then s.ip else s.ip + 2#16 })) ∧
  (∀ (s : State) (op m : Byte), ∃ t u : State,
      exec (.unrecognized op) s = .next t ∧ exec (.decodeFault op m) s = .next u ∧
      t.diag = s.diag ++ [.unrecognizedOpcode s.cs0 s.ip0 op] ∧ u.diag = s.diag ++ [.decodeFault s.cs0 s.ip0 m] ∧
      ∀ v ∈ [t, u],
        v.pfx = PrefixState.empty ∧
        (s.cfg.faultPolicy = .halt → v.driver = .fault ∧ v.ip = s.ip0) ∧
        (s.cfg.faultPolicy = .skip → v.driver = .idle ∧ v.ip = s.ip) ∧
        v.sregs = s.sregs ∧ v.flags = s.flags ∧ WritesNothing s v ∧ v.pending = s.pending ∧ v.intTable = s.intTable ∧
        v.portTable = s.portTable ∧ v.cfg = s.cfg)

/-- R150, R152: in Fault a pass does nothing, for ever; in Halted it fetches nothing and only looks at the pending slot. -/
def Obligations.FaultAndHaltedPasses : Prop :=
  ∀ s : State,
    (s.driver = .fault → step s = .next s) ∧
    (s.driver = .halted → s.pending = none → step s = .next s) ∧
    (s.driver = .halted → s.flags.iflag = false → s.cfg.hardintGatedByIf = true → step s = .next s) ∧
    (∀ n, s.driver = .halted → s.pending = some n → (s.flags.iflag = true ∨ s.cfg.hardintGatedByIf = false) →
      step s = .next { ({ s with pending := none } : State).raiseInterrupt n with driver := .idle })

/-- R148, R531, R533, R535: the end of a pass that did not fault: Prefix State empty, then single step if it is on and TF was 1
at the start, then the pending slot if it is not gated off, cleared before its handler runs; Halted is left exactly when the
slot was serviced. -/
def Obligations.EndOfPassOrder : Prop :=
  ∀ (s : State) (tf0 : Bool), (s.driver = .dispatch ∨ s.driver = .halted) →
    ∃ s1 : State,
      s1 = (if s.cfg.tfSingleStep = true ∧ tf0 = true
        then ({ s with pfx := PrefixState.empty } : State).raiseInterrupt 1#8 else { s with pfx := PrefixState.empty }) ∧
      (∀ n, s1.pending = some n → (s1.flags.iflag = true ∨ s.cfg.hardintGatedByIf = false) →
        s.endPass tf0 = { ({ s1 with pending := none } : State).raiseInterrupt n with driver := .idle }) ∧
      ((s1.pending = none ∨ (s1.flags.iflag = false ∧ s.cfg.hardintGatedByIf = true)) →
        s.endPass tf0 = { s1 with driver := if s.driver = .halted then .halted else .idle })

/-! ## Interrupts and reset -/

/-- R528: the standard handler: FLAGS, CS and IP are pushed in that order, IF and TF are cleared, CS:IP is loaded from
0000h:4n, and nothing else changes. -/
def Obligations.GuestVectorEntry : Prop :=
  ∀ (s : State) (n : Byte), lookup s.intTable n.toNat = some .guestVector →
    let t := s.raiseInterrupt n
    PushedAll s t [s.flags.image, s.sreg .cs, s.ip] ∧
    t.flags = { s.flags with iflag := false, tf := false } ∧
    t.ip = t.readWord 0#16 (BitVec.ofNat 16 (4 * n.toNat)) ∧
    t.sreg .cs = t.readWord 0#16 (BitVec.ofNat 16 (4 * n.toNat + 2)) ∧
    SRegsSameBut s t [.cs] ∧ ControlSame s t

/-- R428, R537: IRET completes in every state with IP, CS and the nine flags taken from the stack, and after the standard
handler's entry it gives back registers, segment registers, IP and flags as they were. -/
def Obligations.InterruptReturn : Prop :=
  (∀ s : State, ∃ t, exec .iret s = .next t ∧
    t.ip = stackWord s 0 ∧ t.sreg .cs = stackWord s 1 ∧ t.flags.image = (stackWord s 2 &&& 0x0FD5#16) ||| 0xF002#16 ∧
    t.reg16 .sp = s.reg16 .sp + 6#16 ∧ RegsSameBut s t [.sp] ∧ SRegsSameBut s t [.cs] ∧ MemSameBut s t [] ∧
    ControlSame s t) ∧
  (∀ (s : State) (n : Byte), lookup s.intTable n.toNat = some .guestVector →
    ∃ t, exec .iret (s.raiseInterrupt n) = .next t ∧ t.regs = s.regs ∧ t.sregs = s.sregs ∧ t.ip = s.ip ∧
      t.flags = s.flags)

/-- R425, R426, R427, R525, R524: INT n and INT 3 raise their vector in every state; INTO raises vector 4 when OF is 1 and else
changes nothing; raising a vector with no handler in its slot changes nothing but for the Unmapped record of STRICT_DIAG, which
holds the recorded CS and IP0: for a hardware interrupt taken in Halted or at the end of a pass those contents are the model's
choice (log 15); a handler of the environment may leave any registers, flags, IP, memory and pending slot (R526),
uninterpreted here, and beside the count of free values (log 4) cannot change anything else but append to the log under
STRICT_DIAG (the model's choice, log 6). -/
def Obligations.SoftwareInterrupts : Prop :=
  (∀ (s : State) (n : Byte),
      exec (.int n) s = .next (s.raiseInterrupt n) ∧ exec .int3 s = .next (s.raiseInterrupt 3#8) ∧
      (s.flags.of = true → exec .into s = .next (s.raiseInterrupt 4#8)) ∧
      (s.flags.of = false → exec .into s = .next s)) ∧
  (∀ (s : State) (n : Byte), lookup s.intTable n.toNat = none →
      (s.cfg.strictDiag = false → s.raiseInterrupt n = s) ∧
      (s.cfg.strictDiag = true →
        s.raiseInterrupt n = { s with diag := s.diag ++ [.unmappedInterrupt s.cs0 s.ip0 n] })) ∧
  (∀ (s : State) (n : Byte) (id : Nat), lookup s.intTable n.toNat = some (.host id) →
      let t := s.raiseInterrupt n
      let e := hostInterrupt id s
      t.regs = e.regs ∧ t.sregs = e.sregs ∧ t.ip = e.ip ∧ t.flags = e.flags ∧ t.mem = applyWrites s.mem e.writes ∧
      t.pending = e.pending ∧ t.pfx = s.pfx ∧ t.driver = s.driver ∧ t.cs0 = s.cs0 ∧ t.ip0 = s.ip0 ∧
      t.intTable = s.intTable ∧ t.portTable = s.portTable ∧ t.cfg = s.cfg ∧ s.diag <+: t.diag ∧
      (s.cfg.strictDiag = false → t.diag = s.diag))

/-- R570, R42: the reset event: every item of the table takes its value, the general registers take RESET_GPR, memory is not
touched; and the machine after reset is the machine after the reset event. -/
def Obligations.ResetEventValues : Prop :=
  ∀ s : State,
    s.resetEvent.sreg .cs = 0xFFFF#16 ∧ s.resetEvent.ip = 0#16 ∧ s.resetEvent.sreg .ds = 0#16 ∧
    s.resetEvent.sreg .es = 0#16 ∧ s.resetEvent.sreg .ss = 0#16 ∧ s.resetEvent.flags.image = 0xF002#16 ∧
    s.resetEvent.pfx = ⟨none, none, false⟩ ∧ s.resetEvent.driver = .idle ∧ s.resetEvent.pending = none ∧
    s.resetEvent.diag = [] ∧ s.resetEvent.intTable = s.cfg.intTableInit ∧
    s.resetEvent.portTable = s.cfg.portTableInit ∧ s.resetEvent.regs = s.cfg.resetGpr ∧ s.resetEvent.mem = s.mem ∧
    s.resetEvent.cfg = s.cfg ∧ phys (s.resetEvent.sreg .cs) s.resetEvent.ip = 0xFFFF0 ∧
    State.reset.resetEvent = State.reset

/-! ## What no step breaks -/

/-- The invariant holds right after reset. -/
def Obligations.InvariantAtReset : Prop := State.reset.Inv

/-- R32, R33, R39, R140: from every state with the invariant, a step gives a state with the invariant: memory and tables in
canonical form, the driver at a boundary, Prefix State empty, Fault only under `FAULT_POLICY = halt`. -/
def Obligations.InvariantKeptByStep : Prop :=
  ∀ s t : State, s.Inv → step s = .next t → t.Inv

/-- R35, R36, R38, R8: no step writes the interrupt table, the port table or the parameters, and none removes a record of the
diagnostic log. The rules say so of instructions; for a step that calls a handler of the environment it is the model's choice
(log 6 for interrupt handlers, log 7 for port handlers), and false of a platform whose handlers install handlers. The count of
free values used, the model's own (log 4), never goes down. -/
def Obligations.StepKeepsTablesAndLog : Prop :=
  ∀ s t : State, step s = .next t →
    t.intTable = s.intTable ∧ t.portTable = s.portTable ∧ t.cfg = s.cfg ∧ s.diag <+: t.diag ∧ s.draws ≤ t.draws

/-- Every instruction completes in every state. With no handler of the environment installed none of them writes the pending
slot and none reads it: with another slot the same state results but for that slot (R34). None moves the recorded CS and
IP0, and, the fault rows apart, none records a fault or enters Fault (R38, R149); for an instruction that calls a handler of
the environment this is the model's choice (log 6, log 7). -/
def Obligations.EveryInstructionCompletes : Prop :=
  ∀ (i : Instr) (s : State), ∃ t, exec i s = .next t ∧
    t.cs0 = s.cs0 ∧ t.ip0 = s.ip0 ∧
    (s.noHostHandlers → t.pending = s.pending ∧
      ∀ p : Option Byte, exec i { s with pending := p } = .next { t with pending := p }) ∧
    ((∀ op, i ≠ .unrecognized op) → (∀ op m, i ≠ .decodeFault op m) →
      t.diag.filter DiagRecord.isFault = s.diag.filter DiagRecord.isFault ∧ (t.driver = .fault → s.driver = .fault))

/-! ## Data transfer -/

/-- R200 to R203, R216: MOV between registers and memory, of an immediate and with a direct offset, every form, and XLAT: the
destination holds the source, the direct offset and the table are at SegFor(DS), and nothing else changes. -/
def Obligations.MovMovesItsOperand : Prop :=
  (∀ s : State,
      (∀ x r, ∃ t, exec (.movRmReg (.rm8Reg8 x r)) s = .next t ∧ OnlyData s t ∧ t.flags = s.flags ∧
        Writes8 s t x (s.reg8 r)) ∧
      (∀ x r, ∃ t, exec (.movRmReg (.rm16Reg16 x r)) s = .next t ∧ OnlyData s t ∧ t.flags = s.flags ∧
        Writes16 s t x (s.reg16 r)) ∧
      (∀ r x, ∃ t, exec (.movRmReg (.reg8Rm8 r x)) s = .next t ∧ OnlyData s t ∧ t.flags = s.flags ∧
        Writes8 s t (.reg r) (s.readRM8 x)) ∧
      (∀ r x, ∃ t, exec (.movRmReg (.reg16Rm16 r x)) s = .next t ∧ OnlyData s t ∧ t.flags = s.flags ∧
        Writes16 s t (.reg r) (s.readRM16 x)) ∧
      (∀ x i, ∃ t, exec (.movRmImm (.rm8Imm8 x i)) s = .next t ∧ OnlyData s t ∧ t.flags = s.flags ∧ Writes8 s t x i) ∧
      (∀ x i, ∃ t, exec (.movRmImm (.rm16Imm16 x i)) s = .next t ∧ OnlyData s t ∧ t.flags = s.flags ∧ Writes16 s t x i) ∧
      (∀ r i, ∃ t, exec (.movRegImm (.reg8Imm8 r i)) s = .next t ∧ OnlyData s t ∧ t.flags = s.flags ∧
        Writes8 s t (.reg r) i) ∧
      (∀ r i, ∃ t, exec (.movRegImm (.reg16Imm16 r i)) s = .next t ∧ OnlyData s t ∧ t.flags = s.flags ∧
        Writes16 s t (.reg r) i)) ∧
  (∀ (s : State) (off : Word),
      (∃ t, exec (.movMoffs (.alMoffs off)) s = .next t ∧ OnlyData s t ∧ t.flags = s.flags ∧
        Writes8 s t (.reg .al) (s.readByte (s.sreg (s.pfx.seg.getD .ds)) off)) ∧
      (∃ t, exec (.movMoffs (.axMoffs off)) s = .next t ∧ OnlyData s t ∧ t.flags = s.flags ∧
        Writes16 s t (.reg .ax) (s.readWord (s.sreg (s.pfx.seg.getD .ds)) off)) ∧
      (∃ t, exec (.movMoffs (.moffsAl off)) s = .next t ∧ OnlyData s t ∧ t.flags = s.flags ∧
        t.readByte (s.sreg (s.pfx.seg.getD .ds)) off = s.reg8 .al ∧ RegsSameBut s t [] ∧
        MemSameBut s t [phys (s.sreg (s.pfx.seg.getD .ds)) off]) ∧
      (∃ t, exec (.movMoffs (.moffsAx off)) s = .next t ∧ OnlyData s t ∧ t.flags = s.flags ∧
        t.readWord (s.sreg (s.pfx.seg.getD .ds)) off = s.reg16 .ax ∧ RegsSameBut s t [] ∧
        MemSameBut s t (wordAt (s.sreg (s.pfx.seg.getD .ds)) off)) ∧
      (∃ t, exec .xlat s = .next t ∧ OnlyData s t ∧ t.flags = s.flags ∧
        Writes8 s t (.reg .al)
          (s.readByte (s.sreg (s.pfx.seg.getD .ds)) (s.reg16 .bx + BitVec.ofNat 16 (s.reg8 .al).toNat))))

/-- R204, R205, R217, R218, R219: MOV from and to a segment register, the operand addressed with the old segment values; LEA loads
the offset and reads nothing; LDS and LES load the offset word and then the segment word two bytes on, both read with the old
registers; nothing else changes. -/
def Obligations.SegmentAndAddressLoads : Prop :=
  (∀ (s : State) (x : RM16) (sr : SReg),
      (∃ t, exec (.movRmSreg x sr) s = .next t ∧ OnlyData s t ∧ t.flags = s.flags ∧ Writes16 s t x (s.sreg sr)) ∧
      (∃ t, exec (.movSregRm sr x) s = .next t ∧ t.sreg sr = s.readRM16 x ∧ SRegsSameBut s t [sr] ∧ t.ip = s.ip ∧
        t.flags = s.flags ∧ WritesNothing s t ∧ ControlSame s t)) ∧
  (∀ (s : State) (r : Reg16) (m : MemOp),
      (∃ t, exec (.lea r m) s = .next t ∧ OnlyData s t ∧ t.flags = s.flags ∧ Writes16 s t (.reg r) (s.ea m)) ∧
      (∃ t, exec (.lds r m) s = .next t ∧ Writes16 s t (.reg r) (s.readWord (s.memSeg m) (s.ea m)) ∧
        t.sreg .ds = s.readWord (s.memSeg m) (s.ea m + 2#16) ∧ SRegsSameBut s t [.ds] ∧ t.ip = s.ip ∧
        t.flags = s.flags ∧ ControlSame s t) ∧
      (∃ t, exec (.les r m) s = .next t ∧ Writes16 s t (.reg r) (s.readWord (s.memSeg m) (s.ea m)) ∧
        t.sreg .es = s.readWord (s.memSeg m) (s.ea m + 2#16) ∧ SRegsSameBut s t [.es] ∧ t.ip = s.ip ∧
        t.flags = s.flags ∧ ControlSame s t))

/-- R206, R207, R208, R222, R484, R485: every PUSH and PUSHF: SP down by two, the word at the new SS:SP, nothing else; PUSH SP
pushes the decremented SP. -/
def Obligations.PushStoresOneWord : Prop :=
  ∀ s : State,
    (∀ r, ∃ t, exec (.pushReg r) s = .next t ∧ OnlyData s t ∧ t.flags = s.flags ∧
      Pushed s t (if r = .sp then s.reg16 .sp - 2#16 else s.reg16 r)) ∧
    (∀ x, ∃ t, exec (.pushRm x) s = .next t ∧ OnlyData s t ∧ t.flags = s.flags ∧
      Pushed s t (if x = .reg .sp then s.reg16 .sp - 2#16 else s.readRM16 x)) ∧
    (∀ sr, ∃ t, exec (.pushSreg sr) s = .next t ∧ OnlyData s t ∧ t.flags = s.flags ∧ Pushed s t (s.sreg sr)) ∧
    (∃ t, exec .pushf s = .next t ∧ OnlyData s t ∧ t.flags = s.flags ∧ Pushed s t s.flags.image) ∧
    (∀ i, ∃ t, exec (.pushImm16 i) s = .next t ∧ OnlyData s t ∧ t.flags = s.flags ∧ Pushed s t i) ∧
    (∀ i : Byte, ∃ t, exec (.pushImm8 i) s = .next t ∧ OnlyData s t ∧ t.flags = s.flags ∧
      Pushed s t (i.signExtend 16))

/-- R209, R210, R211, R223: every POP and POPF: the word at SS:SP goes to the destination, SP goes up by two unless it is the
destination itself, nothing else changes; the destination in memory is addressed from the registers before the pop. -/
def Obligations.PopLoadsOneWord : Prop :=
  ∀ s : State,
    (∀ r, ∃ t, exec (.popReg r) s = .next t ∧ OnlyData s t ∧ t.flags = s.flags ∧ t.reg16 r = stackWord s 0 ∧
      (r ≠ .sp → t.reg16 .sp = s.reg16 .sp + 2#16) ∧ RegsSameBut s t [r, .sp] ∧ MemSameBut s t []) ∧
    (∀ r, ∃ t, exec (.popRm (.reg r)) s = .next t ∧ OnlyData s t ∧ t.flags = s.flags ∧ t.reg16 r = stackWord s 0 ∧
      (r ≠ .sp → t.reg16 .sp = s.reg16 .sp + 2#16) ∧ RegsSameBut s t [r, .sp] ∧ MemSameBut s t []) ∧
    (∀ m, ∃ t, exec (.popRm (.mem m)) s = .next t ∧ OnlyData s t ∧ t.flags = s.flags ∧
      t.readWord (s.memSeg m) (s.ea m) = stackWord s 0 ∧ t.reg16 .sp = s.reg16 .sp + 2#16 ∧
      RegsSameBut s t [.sp] ∧ MemSameBut s t (wordAt (s.memSeg m) (s.ea m))) ∧
    (∀ sr, ∃ t, exec (.popSreg sr) s = .next t ∧ t.sreg sr = stackWord s 0 ∧ SRegsSameBut s t [sr] ∧ t.ip = s.ip ∧
      t.flags = s.flags ∧ t.reg16 .sp = s.reg16 .sp + 2#16 ∧ RegsSameBut s t [.sp] ∧ MemSameBut s t [] ∧
      ControlSame s t) ∧
    (∃ t, exec .popf s = .next t ∧ OnlyData s t ∧ t.flags.image = (stackWord s 0 &&& 0x0FD5#16) ||| 0xF002#16 ∧
      t.reg16 .sp = s.reg16 .sp + 2#16 ∧ RegsSameBut s t [.sp] ∧ MemSameBut s t [])

/-- R212, R213: XCHG: register and operand change places, and nothing else changes. -/
def Obligations.XchgSwaps : Prop :=
  ∀ s : State,
    (∀ r x, ∃ t, exec (.xchgRm (.reg8Rm8 r x)) s = .next t ∧ OnlyData s t ∧ t.flags = s.flags ∧
      t.reg8 r = s.readRM8 x ∧ t.readOp8 (s.resolve x) = s.reg8 r ∧
      (∀ r1, r1 ≠ r → x ≠ .reg r1 → t.reg8 r1 = s.reg8 r1) ∧
      (∀ r1 : Reg16, r1 = .sp ∨ r1 = .bp ∨ r1 = .si ∨ r1 = .di → t.reg16 r1 = s.reg16 r1) ∧
      (∀ r1, x = .reg r1 → MemSameBut s t []) ∧
      (∀ m, x = .mem m → MemSameBut s t [phys (s.memSeg m) (s.ea m)])) ∧
    (∀ r x, ∃ t, exec (.xchgRm (.reg16Rm16 r x)) s = .next t ∧ OnlyData s t ∧ t.flags = s.flags ∧
      t.reg16 r = s.readRM16 x ∧ t.readOp16 (s.resolve x) = s.reg16 r ∧
      (∀ r1, r1 ≠ r → x ≠ .reg r1 → t.reg16 r1 = s.reg16 r1) ∧
      (∀ r1, x = .reg r1 → MemSameBut s t []) ∧
      (∀ m, x = .mem m → MemSameBut s t (wordAt (s.memSeg m) (s.ea m)))) ∧
    (∀ r, ∃ t, exec (.xchgAx r) s = .next t ∧ OnlyData s t ∧ t.flags = s.flags ∧
      t.reg16 .ax = s.reg16 r ∧ t.reg16 r = s.reg16 .ax ∧ RegsSameBut s t [.ax, r] ∧ MemSameBut s t [])

/-- R220, R221: LAHF and SAHF move SF, ZF, AF, PF and CF between the flags and AH. -/
def Obligations.FlagByteTransfers : Prop :=
  ∀ s : State,
    (∃ t, exec .lahf s = .next t ∧ OnlyData s t ∧ t.flags = s.flags ∧
      Writes8 s t (.reg .ah) (BitVec.ofBool s.flags.sf ++ BitVec.ofBool s.flags.zf ++ 0#1 ++ BitVec.ofBool s.flags.af ++
        0#1 ++ BitVec.ofBool s.flags.pf ++ 1#1 ++ BitVec.ofBool s.flags.cf)) ∧
    (∃ t, exec .sahf s = .next t ∧ OnlyData s t ∧ WritesNothing s t ∧
      t.flags = { s.flags with
        sf := (s.reg8 .ah).getLsbD 7, zf := (s.reg8 .ah).getLsbD 6, af := (s.reg8 .ah).getLsbD 4
        pf := (s.reg8 .ah).getLsbD 2, cf := (s.reg8 .ah).getLsbD 0 })

/-- R214, R215, R75 to R77. With no handler on the port IN loads the idle value and OUT does nothing, neither raises a fault, and
under STRICT_DIAG the only difference is the Unmapped record. With a handler: one call; IN loads what it returns, a byte form
its low byte; the handler's part is memory and the pending slot, and every other register and flag stays. The handler itself
is uninterpreted (log 7). -/
def Obligations.PortAccess : Prop :=
  (∀ (s : State) (f : PortForm) (port : Word),
      port = (match f with
        | .byteImm p => BitVec.ofNat 16 p.toNat
        | .wordImm p => BitVec.ofNat 16 p.toNat
        | .byteDx => s.reg16 .dx
        | .wordDx => s.reg16 .dx) →
      (s.readHandler port = none →
        exec (.inPort f) s = .next
          ((match f with
            | .byteImm _ => s.setReg8 .al s.cfg.portIdleByte
            | .wordImm _ => s.setReg16 .ax s.cfg.portIdleWord
            | .byteDx => s.setReg8 .al s.cfg.portIdleByte
            | .wordDx => s.setReg16 .ax s.cfg.portIdleWord) |> fun u : State =>
          { u with diag := if s.cfg.strictDiag = true then s.diag ++ [.unmappedPort s.cs0 s.ip0 port] else s.diag })) ∧
      (s.writeHandler port = none →
        exec (.outPort f) s = .next
          { s with diag := if s.cfg.strictDiag = true then s.diag ++ [.unmappedPort s.cs0 s.ip0 port] else s.diag })) ∧
  (∀ (s : State) (f : PortForm) (port : Word) (id : Nat),
      port = (match f with
        | .byteImm p => BitVec.ofNat 16 p.toNat
        | .wordImm p => BitVec.ofNat 16 p.toNat
        | .byteDx => s.reg16 .dx
        | .wordDx => s.reg16 .dx) →
      (s.readHandler port = some id →
        ∃ t, exec (.inPort f) s = .next t ∧ t.sregs = s.sregs ∧ t.ip = s.ip ∧ t.flags = s.flags ∧ t.pfx = s.pfx ∧
          t.driver = s.driver ∧ t.intTable = s.intTable ∧ t.portTable = s.portTable ∧ t.diag = s.diag ∧ t.cfg = s.cfg ∧
          RegsSameBut s t [.ax] ∧
          (match f with
            | .byteImm _ => t.reg8 .al = (hostPortRead id port .byte s).1.extractLsb' 0 8 ∧ t.reg8 .ah = s.reg8 .ah ∧
                t.mem = applyWrites s.mem (hostPortRead id port .byte s).2.writes ∧
                t.pending = (hostPortRead id port .byte s).2.pending
            | .byteDx => t.reg8 .al = (hostPortRead id port .byte s).1.extractLsb' 0 8 ∧ t.reg8 .ah = s.reg8 .ah ∧
                t.mem = applyWrites s.mem (hostPortRead id port .byte s).2.writes ∧
                t.pending = (hostPortRead id port .byte s).2.pending
            | .wordImm _ => t.reg16 .ax = (hostPortRead id port .word s).1 ∧
                t.mem = applyWrites s.mem (hostPortRead id port .word s).2.writes ∧
                t.pending = (hostPortRead id port .word s).2.pending
            | .wordDx => t.reg16 .ax = (hostPortRead id port .word s).1 ∧
                t.mem = applyWrites s.mem (hostPortRead id port .word s).2.writes ∧
                t.pending = (hostPortRead id port .word s).2.pending)) ∧
      (s.writeHandler port = some id →
        ∃ (t : State) (e : PortEffect), exec (.outPort f) s = .next t ∧
          e = (match f with
            | .byteImm _ => hostPortWrite id port .byte (BitVec.ofNat 16 (s.reg8 .al).toNat) s
            | .byteDx => hostPortWrite id port .byte (BitVec.ofNat 16 (s.reg8 .al).toNat) s
            | .wordImm _ => hostPortWrite id port .word (s.reg16 .ax) s
            | .wordDx => hostPortWrite id port .word (s.reg16 .ax) s) ∧
          t.mem = applyWrites s.mem e.writes ∧ t.pending = e.pending ∧
          t.regs = s.regs ∧ t.sregs = s.sregs ∧ t.ip = s.ip ∧ t.flags = s.flags ∧
          t.pfx = s.pfx ∧ t.driver = s.driver ∧ t.intTable = s.intTable ∧ t.portTable = s.portTable ∧ t.diag = s.diag ∧
          t.cfg = s.cfg))

/-! ## Arithmetic -/

/-- R262, R270, R271: ADD and ADC, every form: result, six flags, and nothing else changes. -/
def Obligations.AddAndAdcResults : Prop :=
  ∀ (s : State) (f : AluForm),
    (∃ t, exec (.add f) s = .next t ∧ OnlyData s t ∧ ControlFlagsSame s t ∧
      aluHolds s (fun x b => ∃ r, AddResult (s.readRM8 x) b false r t.flags ∧ Writes8 s t x r)
        (fun x b => ∃ r, AddResult (s.readRM16 x) b false r t.flags ∧ Writes16 s t x r) f) ∧
    (∃ t, exec (.adc f) s = .next t ∧ OnlyData s t ∧ ControlFlagsSame s t ∧
      aluHolds s (fun x b => ∃ r, AddResult (s.readRM8 x) b s.flags.cf r t.flags ∧ Writes8 s t x r)
        (fun x b => ∃ r, AddResult (s.readRM16 x) b s.flags.cf r t.flags ∧ Writes16 s t x r) f)

/-- R263, R272, R273, R277: SUB, SBB and NEG, every form: result, six flags, and nothing else changes. -/
def Obligations.SubSbbAndNegResults : Prop :=
  ∀ s : State,
    (∀ f, ∃ t, exec (.sub f) s = .next t ∧ OnlyData s t ∧ ControlFlagsSame s t ∧
      aluHolds s (fun x b => ∃ r, SubResult (s.readRM8 x) b false r t.flags ∧ Writes8 s t x r)
        (fun x b => ∃ r, SubResult (s.readRM16 x) b false r t.flags ∧ Writes16 s t x r) f) ∧
    (∀ f, ∃ t, exec (.sbb f) s = .next t ∧ OnlyData s t ∧ ControlFlagsSame s t ∧
      aluHolds s (fun x b => ∃ r, SubResult (s.readRM8 x) b s.flags.cf r t.flags ∧ Writes8 s t x r)
        (fun x b => ∃ r, SubResult (s.readRM16 x) b s.flags.cf r t.flags ∧ Writes16 s t x r) f) ∧
    (∀ f, ∃ t, exec (.neg f) s = .next t ∧ OnlyData s t ∧ ControlFlagsSame s t ∧
      unaryHolds (fun x => ∃ r, SubResult 0#8 (s.readRM8 x) false r t.flags ∧ Writes8 s t x r ∧
          (t.flags.cf = true ↔ s.readRM8 x ≠ 0#8))
        (fun x => ∃ r, SubResult 0#16 (s.readRM16 x) false r t.flags ∧ Writes16 s t x r ∧
          (t.flags.cf = true ↔ s.readRM16 x ≠ 0#16)) f)

/-- R274, R267 c: CMP, every form, writes nothing, and its flags order the operands: ZF equal, CF below, SF differing from OF
less; JB, JE and JL after it jump exactly then. -/
def Obligations.CompareOrdersOperands : Prop :=
  ∀ (s : State) (f : AluForm), ∃ t, exec (.cmp f) s = .next t ∧ OnlyData s t ∧ ControlFlagsSame s t ∧ WritesNothing s t ∧
    aluHolds s
      (fun x b => ∃ r, SubResult (s.readRM8 x) b false r t.flags ∧
        (t.flags.zf = true ↔ s.readRM8 x = b) ∧ (t.flags.cf = true ↔ (s.readRM8 x).toNat < b.toNat) ∧
        (t.flags.sf ≠ t.flags.of ↔ (s.readRM8 x).toInt < b.toInt) ∧
        ∀ d, (exec (.jb d) t = .next (t.setIp (if (s.readRM8 x).toNat < b.toNat then t.ip + d.signExtend 16 else t.ip))) ∧
          (exec (.je d) t = .next (t.setIp (if s.readRM8 x = b then t.ip + d.signExtend 16 else t.ip))) ∧
          (exec (.jl d) t = .next (t.setIp (if (s.readRM8 x).toInt < b.toInt then t.ip + d.signExtend 16 else t.ip))))
      (fun x b => ∃ r, SubResult (s.readRM16 x) b false r t.flags ∧
        (t.flags.zf = true ↔ s.readRM16 x = b) ∧ (t.flags.cf = true ↔ (s.readRM16 x).toNat < b.toNat) ∧
        (t.flags.sf ≠ t.flags.of ↔ (s.readRM16 x).toInt < b.toInt) ∧
        ∀ d, (exec (.jb d) t = .next (t.setIp (if (s.readRM16 x).toNat < b.toNat then t.ip + d.signExtend 16 else t.ip))) ∧
          (exec (.je d) t = .next (t.setIp (if s.readRM16 x = b then t.ip + d.signExtend 16 else t.ip))) ∧
          (exec (.jl d) t = .next (t.setIp (if (s.readRM16 x).toInt < b.toInt then t.ip + d.signExtend 16 else t.ip)))) f

/-- R264, R275, R276: INC and DEC, every form: the operand plus or minus one, CF kept, OF set exactly at the greatest or the
least signed value, AF on the low digit, and nothing else changes. -/
def Obligations.IncDecResults : Prop :=
  ∀ (s : State) (f : IncForm),
    (∃ t, exec (.inc f) s = .next t ∧ OnlyData s t ∧ ControlFlagsSame s t ∧ t.flags.cf = s.flags.cf ∧
      incHolds
        (fun x => Writes8 s t x (s.readRM8 x + 1#8) ∧ Szp (s.readRM8 x + 1#8) t.flags ∧
          (t.flags.of = true ↔ s.readRM8 x = 0x7F#8) ∧ (t.flags.af = true ↔ (s.readRM8 x).toNat % 16 = 15))
        (fun x => Writes16 s t x (s.readRM16 x + 1#16) ∧ Szp (s.readRM16 x + 1#16) t.flags ∧
          (t.flags.of = true ↔ s.readRM16 x = 0x7FFF#16) ∧ (t.flags.af = true ↔ (s.readRM16 x).toNat % 16 = 15)) f) ∧
    (∃ t, exec (.dec f) s = .next t ∧ OnlyData s t ∧ ControlFlagsSame s t ∧ t.flags.cf = s.flags.cf ∧
      incHolds
        (fun x => Writes8 s t x (s.readRM8 x - 1#8) ∧ Szp (s.readRM8 x - 1#8) t.flags ∧
          (t.flags.of = true ↔ s.readRM8 x = 0x80#8) ∧ (t.flags.af = true ↔ (s.readRM8 x).toNat % 16 = 0))
        (fun x => Writes16 s t x (s.readRM16 x - 1#16) ∧ Szp (s.readRM16 x - 1#16) t.flags ∧
          (t.flags.of = true ↔ s.readRM16 x = 0x8000#16) ∧ (t.flags.af = true ↔ (s.readRM16 x).toNat % 16 = 0)) f)

/-- R278: MUL: the exact product in AX, or DX:AX, CF and OF set exactly when its high half is not 0; the other status flags
are free, nothing else changes. -/
def Obligations.MulProduct : Prop :=
  ∀ (s : State) (f : UnaryForm), ∃ t, exec (.mul f) s = .next t ∧ OnlyData s t ∧ ControlFlagsSame s t ∧
    MemSameBut s t [] ∧
    unaryHolds
      (fun x => (t.reg16 .ax).toNat = (s.reg8 .al).toNat * (s.readRM8 x).toNat ∧ RegsSameBut s t [.ax] ∧
        (t.flags.cf = true ↔ t.reg8 .ah ≠ 0#8) ∧ t.flags.of = t.flags.cf)
      (fun x => (t.reg16 .dx).toNat * 65536 + (t.reg16 .ax).toNat = (s.reg16 .ax).toNat * (s.readRM16 x).toNat ∧
        RegsSameBut s t [.ax, .dx] ∧ (t.flags.cf = true ↔ t.reg16 .dx ≠ 0#16) ∧ t.flags.of = t.flags.cf) f

/-- R279, R486, R487: the three IMULs: the exact signed product, and CF and OF set exactly when it does not fit in the signed
range of the operand. -/
def Obligations.ImulProduct : Prop :=
  ∀ s : State,
    (∀ f, ∃ t, exec (.imul f) s = .next t ∧ OnlyData s t ∧ ControlFlagsSame s t ∧ MemSameBut s t [] ∧
      unaryHolds
        (fun x => (t.reg16 .ax).toInt = (s.reg8 .al).toInt * (s.readRM8 x).toInt ∧ RegsSameBut s t [.ax] ∧
          (t.flags.cf = true ↔ (t.reg8 .al).toInt ≠ (t.reg16 .ax).toInt) ∧ t.flags.of = t.flags.cf)
        (fun x => (t.reg16 .dx ++ t.reg16 .ax).toInt = (s.reg16 .ax).toInt * (s.readRM16 x).toInt ∧
          RegsSameBut s t [.ax, .dx] ∧
          (t.flags.cf = true ↔ (t.reg16 .ax).toInt ≠ (t.reg16 .dx ++ t.reg16 .ax).toInt) ∧
          t.flags.of = t.flags.cf) f) ∧
    (∀ r x i, ∃ t, exec (.imulImm16 r x i) s = .next t ∧ OnlyData s t ∧ ControlFlagsSame s t ∧
      Writes16 s t (.reg r) (BitVec.ofInt 16 ((s.readRM16 x).toInt * i.toInt)) ∧
      (t.flags.cf = true ↔ (s.readRM16 x).toInt * i.toInt < -32768 ∨ 32767 < (s.readRM16 x).toInt * i.toInt) ∧
      t.flags.of = t.flags.cf) ∧
    (∀ r x (i : Byte), ∃ t, exec (.imulImm8 r x i) s = .next t ∧ OnlyData s t ∧ ControlFlagsSame s t ∧
      Writes16 s t (.reg r) (BitVec.ofInt 16 ((s.readRM16 x).toInt * i.toInt)) ∧
      (t.flags.cf = true ↔ (s.readRM16 x).toInt * i.toInt < -32768 ∨ 32767 < (s.readRM16 x).toInt * i.toInt) ∧
      t.flags.of = t.flags.cf)

/-- R280: DIV: quotient and remainder when the divisor is not 0 and the quotient fits, else the divide error; the six status
flags are free, nothing else changes. -/
def Obligations.DivQuotientOrError : Prop :=
  ∀ s : State,
    (∀ x, (s.readRM8 x ≠ 0#8 ∧ (s.reg16 .ax).toNat / (s.readRM8 x).toNat ≤ 255 →
        ∃ t, exec (.div (.rm8 x)) s = .next t ∧ OnlyData s t ∧ ControlFlagsSame s t ∧ RegsSameBut s t [.ax] ∧
          MemSameBut s t [] ∧
          (t.reg8 .al).toNat = (s.reg16 .ax).toNat / (s.readRM8 x).toNat ∧
          (t.reg8 .ah).toNat = (s.reg16 .ax).toNat % (s.readRM8 x).toNat) ∧
      (s.readRM8 x = 0#8 ∨ 255 < (s.reg16 .ax).toNat / (s.readRM8 x).toNat →
        exec (.div (.rm8 x)) s = .next s.divideError)) ∧
    (∀ x, (s.readRM16 x ≠ 0#16 ∧ (s.reg16 .dx ++ s.reg16 .ax).toNat / (s.readRM16 x).toNat ≤ 65535 →
        ∃ t, exec (.div (.rm16 x)) s = .next t ∧ OnlyData s t ∧ ControlFlagsSame s t ∧ RegsSameBut s t [.ax, .dx] ∧
          MemSameBut s t [] ∧
          (t.reg16 .ax).toNat = (s.reg16 .dx ++ s.reg16 .ax).toNat / (s.readRM16 x).toNat ∧
          (t.reg16 .dx).toNat = (s.reg16 .dx ++ s.reg16 .ax).toNat % (s.readRM16 x).toNat) ∧
      (s.readRM16 x = 0#16 ∨ 65535 < (s.reg16 .dx ++ s.reg16 .ax).toNat / (s.readRM16 x).toNat →
        exec (.div (.rm16 x)) s = .next s.divideError))

/-- R281: IDIV: `n = q * d + r` with `r` smaller than the divisor and of the dividend's sign, the quotient within +-127 or
+-32767, else the divide error. -/
def Obligations.IdivQuotientOrError : Prop :=
  ∀ s : State,
    (∀ x, (s.readRM8 x ≠ 0#8 ∧ ((s.reg16 .ax).toInt.tdiv (s.readRM8 x).toInt).natAbs ≤ 127 →
        ∃ t, exec (.idiv (.rm8 x)) s = .next t ∧ OnlyData s t ∧ ControlFlagsSame s t ∧ RegsSameBut s t [.ax] ∧
          MemSameBut s t [] ∧
          (s.reg16 .ax).toInt = (t.reg8 .al).toInt * (s.readRM8 x).toInt + (t.reg8 .ah).toInt ∧
          (t.reg8 .ah).toInt.natAbs < (s.readRM8 x).toInt.natAbs ∧ 0 ≤ (t.reg8 .ah).toInt * (s.reg16 .ax).toInt) ∧
      (s.readRM8 x = 0#8 ∨ 127 < ((s.reg16 .ax).toInt.tdiv (s.readRM8 x).toInt).natAbs →
        exec (.idiv (.rm8 x)) s = .next s.divideError)) ∧
    (∀ x, (s.readRM16 x ≠ 0#16 ∧ ((s.reg16 .dx ++ s.reg16 .ax).toInt.tdiv (s.readRM16 x).toInt).natAbs ≤ 32767 →
        ∃ t, exec (.idiv (.rm16 x)) s = .next t ∧ OnlyData s t ∧ ControlFlagsSame s t ∧ RegsSameBut s t [.ax, .dx] ∧
          MemSameBut s t [] ∧
          (s.reg16 .dx ++ s.reg16 .ax).toInt = (t.reg16 .ax).toInt * (s.readRM16 x).toInt + (t.reg16 .dx).toInt ∧
          (t.reg16 .dx).toInt.natAbs < (s.readRM16 x).toInt.natAbs ∧
          0 ≤ (t.reg16 .dx).toInt * (s.reg16 .dx ++ s.reg16 .ax).toInt) ∧
      (s.readRM16 x = 0#16 ∨ 32767 < ((s.reg16 .dx ++ s.reg16 .ax).toInt.tdiv (s.readRM16 x).toInt).natAbs →
        exec (.idiv (.rm16 x)) s = .next s.divideError))

/-- R529: the divide error is vector 0 raised with the six status flags free and all else as it was, whatever slot 0 holds (the
flags are drawn before the handler sees them: log 14). With no handler in slot 0 nothing but those flags changes; with the
standard handler there AX, DX and all registers but SP stay, the frame holds CS and IP of the next instruction, and CS:IP comes
from 0000h:0000h. -/
def Obligations.DivideErrorEntry : Prop :=
  ∀ s : State,
    (∃ (f : Flags) (d : Nat), f.tf = s.flags.tf ∧ f.iflag = s.flags.iflag ∧ f.df = s.flags.df ∧
      s.divideError = ({ s with flags := f, draws := d } : State).raiseInterrupt 0#8) ∧
    (lookup s.intTable 0 = none →
      OnlyData { s with diag := if s.cfg.strictDiag = true then s.diag ++ [.unmappedInterrupt s.cs0 s.ip0 0#8] else s.diag }
        s.divideError ∧ ControlFlagsSame s s.divideError ∧ WritesNothing s s.divideError) ∧
    (lookup s.intTable 0 = some .guestVector →
      ∃ image : Word, PushedAll s s.divideError [image, s.sreg .cs, s.ip] ∧
        image.getLsbD 8 = s.flags.tf ∧ image.getLsbD 9 = s.flags.iflag ∧ image.getLsbD 10 = s.flags.df ∧
        s.divideError.flags.iflag = false ∧ s.divideError.flags.tf = false ∧
        s.divideError.ip = s.divideError.readWord 0#16 0#16 ∧ s.divideError.sreg .cs = s.divideError.readWord 0#16 2#16 ∧
        SRegsSameBut s s.divideError [.cs] ∧ ControlSame s s.divideError)

/-- R282 to R285: DAA and DAS adjust AL from the AL, AF and CF before, with CF, AF, ZF, SF and PF as the rules say and OF free;
AAA and AAS adjust AL and AH apart, AL kept to its low digit, AF and CF equal; nothing else defined changes. -/
def Obligations.DecimalAndAsciiAdjust : Prop :=
  (∀ s : State,
      let al := (s.reg8 .al).toNat
      let low := 9 < al % 16 ∨ s.flags.af = true
      let high := 0x99 < al ∨ s.flags.cf = true
      (∃ (t : State) (r : Byte), exec .daa s = .next t ∧ OnlyData s t ∧ ControlFlagsSame s t ∧ Writes8 s t (.reg .al) r ∧
        (low → high → r.toNat = (al + 0x66) % 256) ∧ (low → ¬ high → r.toNat = (al + 6) % 256) ∧
        (¬ low → high → r.toNat = (al + 0x60) % 256) ∧ (¬ low → ¬ high → r.toNat = al) ∧
        (t.flags.af = true ↔ low) ∧ (t.flags.cf = true ↔ high) ∧ Szp r t.flags) ∧
      (∃ (t : State) (r : Byte), exec .das s = .next t ∧ OnlyData s t ∧ ControlFlagsSame s t ∧ Writes8 s t (.reg .al) r ∧
        (low → high → r.toNat = (al + 256 - 0x66) % 256) ∧ (low → ¬ high → r.toNat = (al + 256 - 6) % 256) ∧
        (¬ low → high → r.toNat = (al + 256 - 0x60) % 256) ∧ (¬ low → ¬ high → r.toNat = al) ∧
        (t.flags.af = true ↔ low) ∧ (t.flags.cf = true ↔ high ∨ (low ∧ al < 6)) ∧ Szp r t.flags)) ∧
  (∀ s : State,
      let adj := 9 < (s.reg8 .al).toNat % 16 ∨ s.flags.af = true
      (∃ t, exec .aaa s = .next t ∧ OnlyData s t ∧ ControlFlagsSame s t ∧ RegsSameBut s t [.ax] ∧ MemSameBut s t [] ∧
        (t.flags.af = true ↔ adj) ∧ (t.flags.cf = true ↔ adj) ∧
        (adj → (t.reg8 .al).toNat = ((s.reg8 .al).toNat + 6) % 16 ∧ (t.reg8 .ah).toNat = ((s.reg8 .ah).toNat + 1) % 256) ∧
        (¬ adj → (t.reg8 .al).toNat = (s.reg8 .al).toNat % 16 ∧ t.reg8 .ah = s.reg8 .ah)) ∧
      (∃ t, exec .aas s = .next t ∧ OnlyData s t ∧ ControlFlagsSame s t ∧ RegsSameBut s t [.ax] ∧ MemSameBut s t [] ∧
        (t.flags.af = true ↔ adj) ∧ (t.flags.cf = true ↔ adj) ∧
        (adj → (t.reg8 .al).toNat = ((s.reg8 .al).toNat + 256 - 6) % 16 ∧
          (t.reg8 .ah).toNat = ((s.reg8 .ah).toNat + 256 - 1) % 256) ∧
        (¬ adj → (t.reg8 .al).toNat = (s.reg8 .al).toNat % 16 ∧ t.reg8 .ah = s.reg8 .ah)))

/-- R286 to R289: AAM splits AL by the base, a base of 0 being the divide error; AAD joins AH and AL; SF, ZF and PF from the new
AL, the other status flags free. CBW and CWD extend the sign: AX means what AL meant, DX:AX what AX meant. -/
def Obligations.AamAadCbwCwd : Prop :=
  (∀ (s : State) (base : Byte),
      (base ≠ 0#8 → ∃ t, exec (.aam base) s = .next t ∧ OnlyData s t ∧ ControlFlagsSame s t ∧ RegsSameBut s t [.ax] ∧
        MemSameBut s t [] ∧ (s.reg8 .al).toNat = (t.reg8 .ah).toNat * base.toNat + (t.reg8 .al).toNat ∧
        (t.reg8 .al).toNat < base.toNat ∧ Szp (t.reg8 .al) t.flags) ∧
      exec (.aam 0#8) s = .next s.divideError ∧
      (∃ t, exec (.aad base) s = .next t ∧ OnlyData s t ∧ ControlFlagsSame s t ∧ RegsSameBut s t [.ax] ∧
        MemSameBut s t [] ∧ (t.reg8 .al).toNat = ((s.reg8 .al).toNat + (s.reg8 .ah).toNat * base.toNat) % 256 ∧
        t.reg8 .ah = 0#8 ∧ Szp (t.reg8 .al) t.flags)) ∧
  (∀ s : State,
      (∃ t, exec .cbw s = .next t ∧ OnlyData s t ∧ t.flags = s.flags ∧ RegsSameBut s t [.ax] ∧ MemSameBut s t [] ∧
        (t.reg16 .ax).toInt = (s.reg8 .al).toInt) ∧
      (∃ t, exec .cwd s = .next t ∧ OnlyData s t ∧ t.flags = s.flags ∧ RegsSameBut s t [.dx] ∧ MemSameBut s t [] ∧
        (t.reg16 .dx ++ t.reg16 .ax).toInt = (s.reg16 .ax).toInt))

/-! ## Logic, shifts, rotates -/

/-- R265, R320 to R324: AND, OR, XOR, TEST and NOT, every form: result, CF and OF cleared, ZF, SF and PF from the result, AF
free; TEST writes nothing, NOT changes no flag. -/
def Obligations.LogicResults : Prop :=
  ∀ s : State,
    (∀ f, ∃ t, exec (.and f) s = .next t ∧ OnlyData s t ∧ ControlFlagsSame s t ∧
      aluHolds s (fun x b => LogicFlags (s.readRM8 x &&& b) t.flags ∧ Writes8 s t x (s.readRM8 x &&& b))
        (fun x b => LogicFlags (s.readRM16 x &&& b) t.flags ∧ Writes16 s t x (s.readRM16 x &&& b)) f) ∧
    (∀ f, ∃ t, exec (.or f) s = .next t ∧ OnlyData s t ∧ ControlFlagsSame s t ∧
      aluHolds s (fun x b => LogicFlags (s.readRM8 x ||| b) t.flags ∧ Writes8 s t x (s.readRM8 x ||| b))
        (fun x b => LogicFlags (s.readRM16 x ||| b) t.flags ∧ Writes16 s t x (s.readRM16 x ||| b)) f) ∧
    (∀ f, ∃ t, exec (.xor f) s = .next t ∧ OnlyData s t ∧ ControlFlagsSame s t ∧
      aluHolds s (fun x b => LogicFlags (s.readRM8 x ^^^ b) t.flags ∧ Writes8 s t x (s.readRM8 x ^^^ b))
        (fun x b => LogicFlags (s.readRM16 x ^^^ b) t.flags ∧ Writes16 s t x (s.readRM16 x ^^^ b)) f) ∧
    (∀ f, ∃ t, exec (.test f) s = .next t ∧ OnlyData s t ∧ ControlFlagsSame s t ∧ WritesNothing s t ∧
      testHolds s (fun x b => LogicFlags (s.readRM8 x &&& b) t.flags) (fun x b => LogicFlags (s.readRM16 x &&& b) t.flags) f) ∧
    (∀ f, ∃ t, exec (.not f) s = .next t ∧ OnlyData s t ∧ t.flags = s.flags ∧
      unaryHolds (fun x => Writes8 s t x (s.readRM8 x ^^^ 0xFF#8)) (fun x => Writes16 s t x (s.readRM16 x ^^^ 0xFFFF#16)) f)

/-- R330, R331, R332, R490: SHL, every form and count, by the closed form. -/
def Obligations.ShlClosedForm : Prop :=
  ∀ (s : State) (f : ShiftForm), ∃ t, exec (.shl f) s = .next t ∧ OnlyData s t ∧ ControlFlagsSame s t ∧
    shiftHolds s
      (fun x c => (c = 0 → t = s) ∧ (c ≠ 0 → ∃ r : Byte, Writes8 s t x r ∧ Szp r t.flags ∧
        r.toNat = (s.readRM8 x).toNat * 2 ^ c % 2 ^ 8 ∧
        t.flags.cf = (decide (c ≤ 8) && (s.readRM8 x).getLsbD (8 - c)) ∧ (c = 1 → t.flags.of = (r.msb ^^ t.flags.cf))))
      (fun x c => (c = 0 → t = s) ∧ (c ≠ 0 → ∃ r : Word, Writes16 s t x r ∧ Szp r t.flags ∧
        r.toNat = (s.readRM16 x).toNat * 2 ^ c % 2 ^ 16 ∧
        t.flags.cf = (decide (c ≤ 16) && (s.readRM16 x).getLsbD (16 - c)) ∧ (c = 1 → t.flags.of = (r.msb ^^ t.flags.cf)))) f

/-- R330, R331, R333, R334, R490: SHR and SAR, every form and count, by the closed forms. -/
def Obligations.ShrAndSarClosedForm : Prop :=
  ∀ (s : State) (f : ShiftForm),
    (∃ t, exec (.shr f) s = .next t ∧ OnlyData s t ∧ ControlFlagsSame s t ∧
      shiftHolds s
        (fun x c => (c = 0 → t = s) ∧ (c ≠ 0 → ∃ r : Byte, Writes8 s t x r ∧ Szp r t.flags ∧
          r.toNat = (s.readRM8 x).toNat / 2 ^ c ∧ t.flags.cf = (s.readRM8 x).getLsbD (c - 1) ∧
          (c = 1 → t.flags.of = (s.readRM8 x).msb)))
        (fun x c => (c = 0 → t = s) ∧ (c ≠ 0 → ∃ r : Word, Writes16 s t x r ∧ Szp r t.flags ∧
          r.toNat = (s.readRM16 x).toNat / 2 ^ c ∧ t.flags.cf = (s.readRM16 x).getLsbD (c - 1) ∧
          (c = 1 → t.flags.of = (s.readRM16 x).msb))) f) ∧
    (∃ t, exec (.sar f) s = .next t ∧ OnlyData s t ∧ ControlFlagsSame s t ∧
      shiftHolds s
        (fun x c => (c = 0 → t = s) ∧ (c ≠ 0 → ∃ r : Byte, Writes8 s t x r ∧ Szp r t.flags ∧
          r.toInt = (s.readRM8 x).toInt / 2 ^ c ∧ t.flags.cf = (s.readRM8 x).getLsbD (min (c - 1) 7) ∧
          (c = 1 → t.flags.of = false)))
        (fun x c => (c = 0 → t = s) ∧ (c ≠ 0 → ∃ r : Word, Writes16 s t x r ∧ Szp r t.flags ∧
          r.toInt = (s.readRM16 x).toInt / 2 ^ c ∧ t.flags.cf = (s.readRM16 x).getLsbD (min (c - 1) 15) ∧
          (c = 1 → t.flags.of = false))) f)

/-- R335, R336: ROL and ROR, every form and count: the value rotated by the count modulo the width, CF the bit rotated last,
SF, ZF, PF and AF kept. -/
def Obligations.RolAndRorClosedForm : Prop :=
  ∀ (s : State) (f : ShiftForm),
    (∃ t, exec (.rol f) s = .next t ∧ OnlyData s t ∧ ControlFlagsSame s t ∧ t.flags.sf = s.flags.sf ∧
      t.flags.zf = s.flags.zf ∧ t.flags.pf = s.flags.pf ∧ t.flags.af = s.flags.af ∧
      shiftHolds s
        (fun x c => (c = 0 → t = s) ∧ (c ≠ 0 → ∃ r : Byte, Writes8 s t x r ∧ r = (s.readRM8 x).rotateLeft c ∧
          t.flags.cf = r.getLsbD 0 ∧ (c = 1 → t.flags.of = (r.msb ^^ t.flags.cf))))
        (fun x c => (c = 0 → t = s) ∧ (c ≠ 0 → ∃ r : Word, Writes16 s t x r ∧ r = (s.readRM16 x).rotateLeft c ∧
          t.flags.cf = r.getLsbD 0 ∧ (c = 1 → t.flags.of = (r.msb ^^ t.flags.cf)))) f) ∧
    (∃ t, exec (.ror f) s = .next t ∧ OnlyData s t ∧ ControlFlagsSame s t ∧ t.flags.sf = s.flags.sf ∧
      t.flags.zf = s.flags.zf ∧ t.flags.pf = s.flags.pf ∧ t.flags.af = s.flags.af ∧
      shiftHolds s
        (fun x c => (c = 0 → t = s) ∧ (c ≠ 0 → ∃ r : Byte, Writes8 s t x r ∧ r = (s.readRM8 x).rotateRight c ∧
          t.flags.cf = r.msb ∧ (c = 1 → t.flags.of = (r.msb ^^ r.getLsbD 6))))
        (fun x c => (c = 0 → t = s) ∧ (c ≠ 0 → ∃ r : Word, Writes16 s t x r ∧ r = (s.readRM16 x).rotateRight c ∧
          t.flags.cf = r.msb ∧ (c = 1 → t.flags.of = (r.msb ^^ r.getLsbD 14)))) f)

/-- R337, R338: RCL and RCR, every form and count: CF and the operand are one ring of N + 1 bits, rotated by the count; SF, ZF,
PF and AF kept. -/
def Obligations.RclAndRcrRing : Prop :=
  ∀ (s : State) (f : ShiftForm),
    (∃ t, exec (.rcl f) s = .next t ∧ OnlyData s t ∧ ControlFlagsSame s t ∧ t.flags.sf = s.flags.sf ∧
      t.flags.zf = s.flags.zf ∧ t.flags.pf = s.flags.pf ∧ t.flags.af = s.flags.af ∧
      shiftHolds s
        (fun x c => (c = 0 → t = s) ∧ (c ≠ 0 → ∃ r : Byte, Writes8 s t x r ∧
          BitVec.cons t.flags.cf r = (BitVec.cons s.flags.cf (s.readRM8 x)).rotateLeft c ∧
          (c = 1 → t.flags.of = (r.msb ^^ t.flags.cf))))
        (fun x c => (c = 0 → t = s) ∧ (c ≠ 0 → ∃ r : Word, Writes16 s t x r ∧
          BitVec.cons t.flags.cf r = (BitVec.cons s.flags.cf (s.readRM16 x)).rotateLeft c ∧
          (c = 1 → t.flags.of = (r.msb ^^ t.flags.cf)))) f) ∧
    (∃ t, exec (.rcr f) s = .next t ∧ OnlyData s t ∧ ControlFlagsSame s t ∧ t.flags.sf = s.flags.sf ∧
      t.flags.zf = s.flags.zf ∧ t.flags.pf = s.flags.pf ∧ t.flags.af = s.flags.af ∧
      shiftHolds s
        (fun x c => (c = 0 → t = s) ∧ (c ≠ 0 → ∃ r : Byte, Writes8 s t x r ∧
          BitVec.cons t.flags.cf r = (BitVec.cons s.flags.cf (s.readRM8 x)).rotateRight c ∧
          (c = 1 → t.flags.of = (s.flags.cf ^^ (s.readRM8 x).msb))))
        (fun x c => (c = 0 → t = s) ∧ (c ≠ 0 → ∃ r : Word, Writes16 s t x r ∧
          BitVec.cons t.flags.cf r = (BitVec.cons s.flags.cf (s.readRM16 x)).rotateRight c ∧
          (c = 1 → t.flags.of = (s.flags.cf ^^ (s.readRM16 x).msb)))) f)

/-! ## Strings -/

/-- R360, R362, R365, R366 without a repeat prefix: one element of MOVS, LODS and STOS: source at SegFor(DS):SI, destination
at ES:DI, SI and DI moved by the step of DF, nothing else. -/
def Obligations.StringMovesOneElement : Prop :=
  ∀ s : State, s.pfx.rep = none →
    let src := s.sreg (s.pfx.seg.getD .ds)
    let si := s.reg16 .si
    let es := s.sreg .es
    let di := s.reg16 .di
    (∃ t, exec .movsb s = .next t ∧ OnlyData s t ∧ t.flags = s.flags ∧ RegsSameBut s t [.si, .di] ∧
      t.reg16 .si = si + elemStep s 1#16 ∧ t.reg16 .di = di + elemStep s 1#16 ∧
      t.readByte es di = s.readByte src si ∧ MemSameBut s t [phys es di]) ∧
    (∃ t, exec .movsw s = .next t ∧ OnlyData s t ∧ t.flags = s.flags ∧ RegsSameBut s t [.si, .di] ∧
      t.reg16 .si = si + elemStep s 2#16 ∧ t.reg16 .di = di + elemStep s 2#16 ∧
      t.readWord es di = s.readWord src si ∧ MemSameBut s t (wordAt es di)) ∧
    (∃ t, exec .lodsb s = .next t ∧ OnlyData s t ∧ t.flags = s.flags ∧ RegsSameBut s t [.ax, .si] ∧
      t.reg16 .si = si + elemStep s 1#16 ∧ t.reg8 .al = s.readByte src si ∧ t.reg8 .ah = s.reg8 .ah ∧
      MemSameBut s t []) ∧
    (∃ t, exec .lodsw s = .next t ∧ OnlyData s t ∧ t.flags = s.flags ∧ RegsSameBut s t [.ax, .si] ∧
      t.reg16 .si = si + elemStep s 2#16 ∧ t.reg16 .ax = s.readWord src si ∧ MemSameBut s t []) ∧
    (∃ t, exec .stosb s = .next t ∧ OnlyData s t ∧ t.flags = s.flags ∧ RegsSameBut s t [.di] ∧
      t.reg16 .di = di + elemStep s 1#16 ∧ t.readByte es di = s.reg8 .al ∧ MemSameBut s t [phys es di]) ∧
    (∃ t, exec .stosw s = .next t ∧ OnlyData s t ∧ t.flags = s.flags ∧ RegsSameBut s t [.di] ∧
      t.reg16 .di = di + elemStep s 2#16 ∧ t.readWord es di = s.reg16 .ax ∧ MemSameBut s t (wordAt es di))

/-- R360, R363, R364 without a repeat prefix: one element of CMPS and SCAS: the flags of source minus destination, or of the
accumulator minus destination; SI and DI moved by the step of DF; nothing is written. -/
def Obligations.StringComparesOneElement : Prop :=
  ∀ s : State, s.pfx.rep = none →
    let src := s.sreg (s.pfx.seg.getD .ds)
    let si := s.reg16 .si
    let es := s.sreg .es
    let di := s.reg16 .di
    (∃ t r, exec .cmpsb s = .next t ∧ OnlyData s t ∧ ControlFlagsSame s t ∧ RegsSameBut s t [.si, .di] ∧
      t.reg16 .si = si + elemStep s 1#16 ∧ t.reg16 .di = di + elemStep s 1#16 ∧ MemSameBut s t [] ∧
      SubResult (s.readByte src si) (s.readByte es di) false r t.flags) ∧
    (∃ t r, exec .cmpsw s = .next t ∧ OnlyData s t ∧ ControlFlagsSame s t ∧ RegsSameBut s t [.si, .di] ∧
      t.reg16 .si = si + elemStep s 2#16 ∧ t.reg16 .di = di + elemStep s 2#16 ∧ MemSameBut s t [] ∧
      SubResult (s.readWord src si) (s.readWord es di) false r t.flags) ∧
    (∃ t r, exec .scasb s = .next t ∧ OnlyData s t ∧ ControlFlagsSame s t ∧ RegsSameBut s t [.di] ∧
      t.reg16 .di = di + elemStep s 1#16 ∧ MemSameBut s t [] ∧
      SubResult (s.reg8 .al) (s.readByte es di) false r t.flags) ∧
    (∃ t r, exec .scasw s = .next t ∧ OnlyData s t ∧ ControlFlagsSame s t ∧ RegsSameBut s t [.di] ∧
      t.reg16 .di = di + elemStep s 2#16 ∧ MemSameBut s t [] ∧
      SubResult (s.reg16 .ax) (s.readWord es di) false r t.flags)

/-- R488, R489 without a repeat prefix. With no handler on port DX: INS stores the idle value at ES:DI, OUTS reads its element and
writes nothing, and under STRICT_DIAG the access is recorded. With a handler: one call; INS stores what it returns, a byte form
its low byte; OUTS gives it the element at SegFor(DS):SI; the handler's part is memory and the pending slot (log 7). DI or SI
moves by the step of DF. -/
def Obligations.PortStringsOneElement : Prop :=
  ∀ s : State, s.pfx.rep = none →
    let es := s.sreg .es
    let di := s.reg16 .di
    let src := s.sreg (s.pfx.seg.getD .ds)
    let si := s.reg16 .si
    let port := s.reg16 .dx
    let noted : State := { s with
      diag := if s.cfg.strictDiag = true then s.diag ++ [.unmappedPort s.cs0 s.ip0 port] else s.diag }
    (s.readHandler port = none →
      (∃ t, exec .insb s = .next t ∧ OnlyData noted t ∧ t.flags = s.flags ∧ RegsSameBut s t [.di] ∧
        t.reg16 .di = di + elemStep s 1#16 ∧ t.readByte es di = s.cfg.portIdleByte ∧ MemSameBut s t [phys es di]) ∧
      (∃ t, exec .insw s = .next t ∧ OnlyData noted t ∧ t.flags = s.flags ∧ RegsSameBut s t [.di] ∧
        t.reg16 .di = di + elemStep s 2#16 ∧ t.readWord es di = s.cfg.portIdleWord ∧ MemSameBut s t (wordAt es di))) ∧
    (s.writeHandler port = none →
      (∃ t, exec .outsb s = .next t ∧ OnlyData noted t ∧ t.flags = s.flags ∧ RegsSameBut s t [.si] ∧
        t.reg16 .si = si + elemStep s 1#16 ∧ MemSameBut s t []) ∧
      (∃ t, exec .outsw s = .next t ∧ OnlyData noted t ∧ t.flags = s.flags ∧ RegsSameBut s t [.si] ∧
        t.reg16 .si = si + elemStep s 2#16 ∧ MemSameBut s t [])) ∧
    (∀ id, s.readHandler port = some id →
      (∃ t, exec .insb s = .next t ∧
        let r := hostPortRead id port .byte s
        let u : State := { s with mem := applyWrites s.mem r.2.writes, pending := r.2.pending }
        OnlyData u t ∧ t.flags = s.flags ∧ RegsSameBut s t [.di] ∧ t.reg16 .di = di + elemStep s 1#16 ∧
        t.readByte es di = r.1.extractLsb' 0 8 ∧ MemSameBut u t [phys es di]) ∧
      (∃ t, exec .insw s = .next t ∧
        let r := hostPortRead id port .word s
        let u : State := { s with mem := applyWrites s.mem r.2.writes, pending := r.2.pending }
        OnlyData u t ∧ t.flags = s.flags ∧ RegsSameBut s t [.di] ∧ t.reg16 .di = di + elemStep s 2#16 ∧
        t.readWord es di = r.1 ∧ MemSameBut u t (wordAt es di))) ∧
    (∀ id, s.writeHandler port = some id →
      (∃ t, exec .outsb s = .next t ∧
        let e := hostPortWrite id port .byte (BitVec.ofNat 16 (s.readByte src si).toNat) s
        let u : State := { s with mem := applyWrites s.mem e.writes, pending := e.pending }
        OnlyData u t ∧ t.flags = s.flags ∧ RegsSameBut s t [.si] ∧ t.reg16 .si = si + elemStep s 1#16 ∧ t.mem = u.mem) ∧
      (∃ t, exec .outsw s = .next t ∧
        let e := hostPortWrite id port .word (s.readWord src si) s
        let u : State := { s with mem := applyWrites s.mem e.writes, pending := e.pending }
        OnlyData u t ∧ t.flags = s.flags ∧ RegsSameBut s t [.si] ∧ t.reg16 .si = si + elemStep s 2#16 ∧ t.mem = u.mem))

/-- R361: the repetition, for all fourteen string instructions: with CX = 0 nothing happens; else one element is done and CX
goes down by one, and then the instruction is done unless a compare ends it, ZF = 0 under REPE and ZF = 1 under REPNE. -/
def Obligations.RepeatUnrolls : Prop :=
  ∀ (s : State) (k : RepKind), s.pfx.rep = some k →
    ∀ p ∈ [(Instr.movsb, movsbBody, false), (.movsw, movswBody, false), (.lodsb, lodsbBody, false),
        (.lodsw, lodswBody, false), (.stosb, stosbBody, false), (.stosw, stoswBody, false), (.cmpsb, cmpsbBody, true),
        (.cmpsw, cmpswBody, true), (.scasb, scasbBody, true), (.scasw, scaswBody, true), (.insb, insbBody, false),
        (.insw, inswBody, false), (.outsb, outsbBody, false), (.outsw, outswBody, false)],
      (s.reg16 .cx = 0#16 → exec p.1 s = .next s) ∧
      (s.reg16 .cx ≠ 0#16 →
        let t := (p.2.1 s).setReg16 .cx (s.reg16 .cx - 1#16)
        (p.2.2 = true → (k = .repe ∧ t.flags.zf = false ∨ k = .repne ∧ t.flags.zf = true) → exec p.1 s = .next t) ∧
        (p.2.2 = false ∨ (k = .repe ∧ t.flags.zf = true) ∨ (k = .repne ∧ t.flags.zf = false) →
          exec p.1 s = exec p.1 t))

/-- R361, R366: REP STOSB with DF = 0 fills the CX bytes at ES:DI with AL, whatever CX is, and changes no other byte; CX ends
at 0 and DI moves by CX. -/
def Obligations.RepStosbFills : Prop :=
  ∀ (s : State) (k : RepKind), s.pfx.rep = some k → s.flags.df = false →
    ∃ t, exec .stosb s = .next t ∧ OnlyData s t ∧ t.flags = s.flags ∧ t.reg16 .cx = 0#16 ∧
      t.reg16 .di = s.reg16 .di + s.reg16 .cx ∧ RegsSameBut s t [.cx, .di] ∧
      (∀ j, j < (s.reg16 .cx).toNat → t.readByte (s.sreg .es) (s.reg16 .di + BitVec.ofNat 16 j) = s.reg8 .al) ∧
      MemSameBut s t ((List.range (s.reg16 .cx).toNat).map fun j => phys (s.sreg .es) (s.reg16 .di + BitVec.ofNat 16 j))

/-- R361, R364: REPNE SCASB with DF = 0 stops just after the first byte equal to AL among the CX bytes at ES:DI, with ZF = 1
and CX counting the bytes not looked at; with none equal it ends at CX = 0 and, if it looked at any, ZF = 0. -/
def Obligations.RepneScasbFindsFirst : Prop :=
  ∀ s : State, s.pfx.rep = some .repne → s.flags.df = false →
    ∃ t, exec .scasb s = .next t ∧ OnlyData s t ∧ ControlFlagsSame s t ∧ RegsSameBut s t [.cx, .di] ∧ MemSameBut s t [] ∧
      (∀ j, j < (s.reg16 .cx).toNat →
        (∀ i, i < j → s.readByte (s.sreg .es) (s.reg16 .di + BitVec.ofNat 16 i) ≠ s.reg8 .al) →
        s.readByte (s.sreg .es) (s.reg16 .di + BitVec.ofNat 16 j) = s.reg8 .al →
        t.flags.zf = true ∧ t.reg16 .di = s.reg16 .di + BitVec.ofNat 16 (j + 1) ∧
          (t.reg16 .cx).toNat = (s.reg16 .cx).toNat - (j + 1)) ∧
      ((∀ i, i < (s.reg16 .cx).toNat → s.readByte (s.sreg .es) (s.reg16 .di + BitVec.ofNat 16 i) ≠ s.reg8 .al) →
        t.reg16 .cx = 0#16 ∧ t.reg16 .di = s.reg16 .di + s.reg16 .cx ∧ (s.reg16 .cx ≠ 0#16 → t.flags.zf = false))

/-! ## Control transfer -/

/-- R390 to R395, R404 to R420: the five jumps: IP, and for the far ones CS, take the target; the sixteen conditional jumps: taken
exactly when the condition holds, to IPnext plus the sign-extended displacement; nothing else changes; an odd condition is the
negation of the even one below it. -/
def Obligations.JumpTargetsAndConditions : Prop :=
  (∀ s : State,
      (∀ d : Byte, exec (.jmpShort d) s = .next { s with ip := s.ip + d.signExtend 16 }) ∧
      (∀ d : Word, exec (.jmpNear d) s = .next { s with ip := s.ip + d }) ∧
      (∀ x, exec (.jmpRm x) s = .next { s with ip := s.readRM16 x }) ∧
      (∀ off sg, exec (.jmpFar off sg) s = .next { s with ip := off, sregs := { s.sregs with cs := sg } }) ∧
      (∀ m, exec (.jmpMemFar m) s = .next { s with
        ip := s.readWord (s.memSeg m) (s.ea m), sregs := { s.sregs with cs := s.readWord (s.memSeg m) (s.ea m + 2#16) } })) ∧
  (∀ (s : State) (d : Byte),
      let f := s.flags
      ∀ p ∈ [(Instr.jo d, f.of), (.jno d, !f.of), (.jb d, f.cf), (.jae d, !f.cf), (.je d, f.zf), (.jne d, !f.zf),
          (.jbe d, f.cf || f.zf), (.ja d, !(f.cf || f.zf)), (.js d, f.sf), (.jns d, !f.sf), (.jp d, f.pf), (.jnp d, !f.pf),
          (.jl d, f.sf != f.of), (.jge d, !(f.sf != f.of)), (.jle d, f.zf || (f.sf != f.of)),
          (.jg d, !(f.zf || (f.sf != f.of)))],
        exec p.1 s = .next { s with ip := if p.2 = true then s.ip + d.signExtend 16 else s.ip })

/-- R396 to R399: the four calls: the return address is pushed, CS before IP for the far ones, the target read before the
push, and nothing else changes. -/
def Obligations.CallsPushReturnAddress : Prop :=
  ∀ s : State,
    (∀ d : Word, ∃ t, exec (.callNear d) s = .next t ∧ PushedAll s t [s.ip] ∧ t.ip = s.ip + d ∧ t.sregs = s.sregs ∧
      t.flags = s.flags ∧ ControlSame s t) ∧
    (∀ x, ∃ t, exec (.callRm x) s = .next t ∧ PushedAll s t [s.ip] ∧ t.ip = s.readRM16 x ∧ t.sregs = s.sregs ∧
      t.flags = s.flags ∧ ControlSame s t) ∧
    (∀ off sg, ∃ t, exec (.callFar off sg) s = .next t ∧ PushedAll s t [s.sreg .cs, s.ip] ∧ t.ip = off ∧
      t.sreg .cs = sg ∧ SRegsSameBut s t [.cs] ∧ t.flags = s.flags ∧ ControlSame s t) ∧
    (∀ m, ∃ t, exec (.callMemFar m) s = .next t ∧ PushedAll s t [s.sreg .cs, s.ip] ∧
      t.ip = s.readWord (s.memSeg m) (s.ea m) ∧ t.sreg .cs = s.readWord (s.memSeg m) (s.ea m + 2#16) ∧
      SRegsSameBut s t [.cs] ∧ t.flags = s.flags ∧ ControlSame s t)

/-- R400 to R403: the four returns: IP, and for the far ones CS, are popped, and the immediate is added to SP after; nothing
else changes. A return right after a call comes back: registers, CS and IP as before the call (R396, R398). -/
def Obligations.ReturnsAndCallsPair : Prop :=
  (∀ (s : State) (k : Word),
      (∃ t, exec .ret s = .next t ∧ t.ip = stackWord s 0 ∧ t.reg16 .sp = s.reg16 .sp + 2#16 ∧ t.sregs = s.sregs ∧
        t.flags = s.flags ∧ RegsSameBut s t [.sp] ∧ MemSameBut s t [] ∧ ControlSame s t) ∧
      (∃ t, exec (.retImm k) s = .next t ∧ t.ip = stackWord s 0 ∧ t.reg16 .sp = s.reg16 .sp + 2#16 + k ∧
        t.sregs = s.sregs ∧ t.flags = s.flags ∧ RegsSameBut s t [.sp] ∧ MemSameBut s t [] ∧ ControlSame s t) ∧
      (∃ t, exec .retf s = .next t ∧ t.ip = stackWord s 0 ∧ t.sreg .cs = stackWord s 1 ∧
        t.reg16 .sp = s.reg16 .sp + 4#16 ∧ SRegsSameBut s t [.cs] ∧ t.flags = s.flags ∧ RegsSameBut s t [.sp] ∧
        MemSameBut s t [] ∧ ControlSame s t) ∧
      (∃ t, exec (.retfImm k) s = .next t ∧ t.ip = stackWord s 0 ∧ t.sreg .cs = stackWord s 1 ∧
        t.reg16 .sp = s.reg16 .sp + 4#16 + k ∧ SRegsSameBut s t [.cs] ∧ t.flags = s.flags ∧ RegsSameBut s t [.sp] ∧
        MemSameBut s t [] ∧ ControlSame s t)) ∧
  (∀ (s : State),
      (∀ d t, exec (.callNear d) s = .next t →
        ∃ u, exec .ret t = .next u ∧ u.ip = s.ip ∧ u.regs = s.regs ∧ u.sregs = s.sregs) ∧
      (∀ off sg t, exec (.callFar off sg) s = .next t →
        ∃ u, exec .retf t = .next u ∧ u.ip = s.ip ∧ u.regs = s.regs ∧ u.sregs = s.sregs))

/-- R421 to R424: LOOP, LOOPZ, LOOPNZ and JCXZ: CX down by one modulo 2^16 for the three loops, the jump taken when CX is not
0 after it and ZF agrees, and for JCXZ when CX is 0; nothing else changes. -/
def Obligations.LoopsCountCx : Prop :=
  ∀ (s : State) (d : Byte),
    let cx := s.reg16 .cx - 1#16
    (∃ t, exec (.loop d) s = .next t ∧ t.reg16 .cx = cx ∧ RegsSameBut s t [.cx] ∧ MemSameBut s t [] ∧
      t.flags = s.flags ∧ t.sregs = s.sregs ∧ ControlSame s t ∧
      t.ip = if cx ≠ 0#16 then s.ip + d.signExtend 16 else s.ip) ∧
    (∃ t, exec (.loopz d) s = .next t ∧ t.reg16 .cx = cx ∧ RegsSameBut s t [.cx] ∧ MemSameBut s t [] ∧
      t.flags = s.flags ∧ t.sregs = s.sregs ∧ ControlSame s t ∧
      t.ip = if cx ≠ 0#16 ∧ s.flags.zf = true then s.ip + d.signExtend 16 else s.ip) ∧
    (∃ t, exec (.loopnz d) s = .next t ∧ t.reg16 .cx = cx ∧ RegsSameBut s t [.cx] ∧ MemSameBut s t [] ∧
      t.flags = s.flags ∧ t.sregs = s.sregs ∧ ControlSame s t ∧
      t.ip = if cx ≠ 0#16 ∧ s.flags.zf = false then s.ip + d.signExtend 16 else s.ip) ∧
    exec (.jcxz d) s = .next { s with ip := if s.reg16 .cx = 0#16 then s.ip + d.signExtend 16 else s.ip }

/-! ## Processor control -/

/-- R450 to R463: the seven flag instructions write their one flag, the seven prefix bytes their one field of Prefix State,
HLT leaves the driver Halted, WAIT, NOP and ESC change nothing; and nothing else changes. -/
def Obligations.ProcessorControl : Prop :=
  (∀ s : State,
      exec .clc s = .next { s with flags := { s.flags with cf := false } } ∧
      exec .stc s = .next { s with flags := { s.flags with cf := true } } ∧
      exec .cmc s = .next { s with flags := { s.flags with cf := !s.flags.cf } } ∧
      exec .cld s = .next { s with flags := { s.flags with df := false } } ∧
      exec .std s = .next { s with flags := { s.flags with df := true } } ∧
      exec .cli s = .next { s with flags := { s.flags with iflag := false } } ∧
      exec .sti s = .next { s with flags := { s.flags with iflag := true } }) ∧
  (∀ s : State,
      exec .hlt s = .next { s with driver := .halted } ∧ exec .wait s = .next s ∧ exec .nop s = .next s ∧
      ∀ n reg x, exec (.esc n reg x) s = .next s) ∧
  (∀ s : State,
      exec .segEs s = .next { s with pfx := { s.pfx with seg := some .es } } ∧
      exec .segCs s = .next { s with pfx := { s.pfx with seg := some .cs } } ∧
      exec .segSs s = .next { s with pfx := { s.pfx with seg := some .ss } } ∧
      exec .segDs s = .next { s with pfx := { s.pfx with seg := some .ds } } ∧
      exec .lock s = .next { s with pfx := { s.pfx with lock := true } } ∧
      exec .repne s = .next { s with pfx := { s.pfx with rep := some .repne } } ∧
      exec .rep s = .next { s with pfx := { s.pfx with rep := some .repe } })

/-! ## 80186 level -/

/-- R481, R482: PUSHA pushes the eight registers with the SP of before; POPA pops seven of them and drops the SP word; POPA
after PUSHA restores every register. -/
def Obligations.PushaAndPopa : Prop :=
  ∀ s : State,
    (∃ t, exec .pusha s = .next t ∧ OnlyData s t ∧ t.flags = s.flags ∧
      PushedAll s t [s.reg16 .ax, s.reg16 .cx, s.reg16 .dx, s.reg16 .bx, s.reg16 .sp, s.reg16 .bp, s.reg16 .si,
        s.reg16 .di] ∧
      ∃ u, exec .popa t = .next u ∧ u.regs = s.regs) ∧
    (∃ t, exec .popa s = .next t ∧ OnlyData s t ∧ t.flags = s.flags ∧ MemSameBut s t [] ∧
      t.reg16 .di = stackWord s 0 ∧ t.reg16 .si = stackWord s 1 ∧ t.reg16 .bp = stackWord s 2 ∧
      t.reg16 .bx = stackWord s 4 ∧ t.reg16 .dx = stackWord s 5 ∧ t.reg16 .cx = stackWord s 6 ∧
      t.reg16 .ax = stackWord s 7 ∧ t.reg16 .sp = s.reg16 .sp + 16#16)

/-- R483: BOUND: within the inclusive signed bounds nothing happens; else IP goes back to IP0 and vector 5 is raised. -/
def Obligations.BoundChecksIndex : Prop :=
  ∀ (s : State) (r : Reg16) (m : MemOp),
    let lo := (s.readWord (s.memSeg m) (s.ea m)).toInt
    let hi := (s.readWord (s.memSeg m) (s.ea m + 2#16)).toInt
    let i := (s.reg16 r).toInt
    (lo ≤ i ∧ i ≤ hi → exec (.bound r m) s = .next s) ∧
    (i < lo ∨ hi < i → exec (.bound r m) s = .next (({ s with ip := s.ip0 } : State).raiseInterrupt 5#8))

/-- R491, R492: ENTER: BP pushed, the level's frame pointers pushed after it, BP at the frame, SP below it by the level and the
size, no byte outside the new frame changed; LEAVE takes SP from BP and pops BP; after ENTER with level 0 it gives back BP and
SP. -/
def Obligations.EnterAndLeaveFrames : Prop :=
  (∀ (s : State) (size : Word) (level : Byte), ∃ t, exec (.enter size level) s = .next t ∧ OnlyData s t ∧
      t.flags = s.flags ∧ RegsSameBut s t [.sp, .bp] ∧
      t.reg16 .bp = s.reg16 .sp - 2#16 ∧
      t.reg16 .sp = s.reg16 .sp - 2#16 - BitVec.ofNat 16 (2 * (level &&& 0x1F#8).toNat) - size ∧
      t.readWord (s.sreg .ss) (s.reg16 .sp - 2#16) = s.reg16 .bp ∧
      ((level &&& 0x1F#8) ≠ 0#8 →
        t.readWord (s.sreg .ss) (s.reg16 .sp - 2#16 - BitVec.ofNat 16 (2 * (level &&& 0x1F#8).toNat)) =
          s.reg16 .sp - 2#16) ∧
      (∀ j, 1 ≤ j → j < (level &&& 0x1F#8).toNat →
        (∀ a ∈ wordAt (s.sreg .ss) (s.reg16 .bp - BitVec.ofNat 16 (2 * j)),
          ∀ i, i ≤ (level &&& 0x1F#8).toNat → a ∉ wordAt (s.sreg .ss) (s.reg16 .sp - 2#16 - BitVec.ofNat 16 (2 * i))) →
        t.readWord (s.sreg .ss) (s.reg16 .sp - 2#16 - BitVec.ofNat 16 (2 * j)) =
          s.readWord (s.sreg .ss) (s.reg16 .bp - BitVec.ofNat 16 (2 * j))) ∧
      MemSameBut s t ((List.range ((level &&& 0x1F#8).toNat + 1)).flatMap fun i =>
        wordAt (s.sreg .ss) (s.reg16 .sp - 2#16 - BitVec.ofNat 16 (2 * i)))) ∧
  (∀ s : State,
      (∃ t, exec .leave s = .next t ∧ OnlyData s t ∧ t.flags = s.flags ∧ RegsSameBut s t [.sp, .bp] ∧ MemSameBut s t [] ∧
        t.reg16 .bp = s.readWord (s.sreg .ss) (s.reg16 .bp) ∧ t.reg16 .sp = s.reg16 .bp + 2#16) ∧
      (∀ size t, exec (.enter size 0#8) s = .next t → ∃ u, exec .leave t = .next u ∧ u.regs = s.regs))
end

