-- ==== Sys2Proof/Laws/State.lean ====
section
/-! SUPPORT. One lemma per field for each of the updates that `Machine/Ops.lean` makes: an update of one field leaves the
others, and what reads only the others, as they were. -/

namespace Sys2Proof.Machine

open Sys2Proof

/-! ### `setReg16` -/

@[simp] theorem State.setReg16_regs (s : State) (r : Reg16) (v : Word) : (s.setReg16 r v).regs = Machine.setReg16 s.regs r v := rfl
@[simp] theorem State.setReg16_sregs (s : State) (r : Reg16) (v : Word) : (s.setReg16 r v).sregs = s.sregs := rfl
@[simp] theorem State.setReg16_ip (s : State) (r : Reg16) (v : Word) : (s.setReg16 r v).ip = s.ip := rfl
@[simp] theorem State.setReg16_flags (s : State) (r : Reg16) (v : Word) : (s.setReg16 r v).flags = s.flags := rfl
@[simp] theorem State.setReg16_pfx (s : State) (r : Reg16) (v : Word) : (s.setReg16 r v).pfx = s.pfx := rfl
@[simp] theorem State.setReg16_driver (s : State) (r : Reg16) (v : Word) : (s.setReg16 r v).driver = s.driver := rfl
@[simp] theorem State.setReg16_cs0 (s : State) (r : Reg16) (v : Word) : (s.setReg16 r v).cs0 = s.cs0 := rfl
@[simp] theorem State.setReg16_ip0 (s : State) (r : Reg16) (v : Word) : (s.setReg16 r v).ip0 = s.ip0 := rfl
@[simp] theorem State.setReg16_pending (s : State) (r : Reg16) (v : Word) : (s.setReg16 r v).pending = s.pending := rfl
@[simp] theorem State.setReg16_intTable (s : State) (r : Reg16) (v : Word) : (s.setReg16 r v).intTable = s.intTable := rfl
@[simp] theorem State.setReg16_portTable (s : State) (r : Reg16) (v : Word) : (s.setReg16 r v).portTable = s.portTable := rfl
@[simp] theorem State.setReg16_diag (s : State) (r : Reg16) (v : Word) : (s.setReg16 r v).diag = s.diag := rfl
@[simp] theorem State.setReg16_mem (s : State) (r : Reg16) (v : Word) : (s.setReg16 r v).mem = s.mem := rfl
@[simp] theorem State.setReg16_cfg (s : State) (r : Reg16) (v : Word) : (s.setReg16 r v).cfg = s.cfg := rfl
@[simp] theorem State.setReg16_draws (s : State) (r : Reg16) (v : Word) : (s.setReg16 r v).draws = s.draws := rfl
@[simp] theorem State.setReg16_readByte (s : State) (r : Reg16) (v : Word) (sg1 off1 : Word) :
    (s.setReg16 r v).readByte sg1 off1 = s.readByte sg1 off1 := rfl
@[simp] theorem State.setReg16_readWord (s : State) (r : Reg16) (v : Word) (sg1 off1 : Word) :
    (s.setReg16 r v).readWord sg1 off1 = s.readWord sg1 off1 := rfl
@[simp] theorem State.setReg16_sreg (s : State) (r : Reg16) (v : Word) (r1 : SReg) : (s.setReg16 r v).sreg r1 = s.sreg r1 := rfl

/-! ### `setReg8` -/

@[simp] theorem State.setReg8_regs (s : State) (r : Reg8) (v : Byte) : (s.setReg8 r v).regs = Machine.setReg8 s.regs r v := rfl
@[simp] theorem State.setReg8_sregs (s : State) (r : Reg8) (v : Byte) : (s.setReg8 r v).sregs = s.sregs := rfl
@[simp] theorem State.setReg8_ip (s : State) (r : Reg8) (v : Byte) : (s.setReg8 r v).ip = s.ip := rfl
@[simp] theorem State.setReg8_flags (s : State) (r : Reg8) (v : Byte) : (s.setReg8 r v).flags = s.flags := rfl
@[simp] theorem State.setReg8_pfx (s : State) (r : Reg8) (v : Byte) : (s.setReg8 r v).pfx = s.pfx := rfl
@[simp] theorem State.setReg8_driver (s : State) (r : Reg8) (v : Byte) : (s.setReg8 r v).driver = s.driver := rfl
@[simp] theorem State.setReg8_cs0 (s : State) (r : Reg8) (v : Byte) : (s.setReg8 r v).cs0 = s.cs0 := rfl
@[simp] theorem State.setReg8_ip0 (s : State) (r : Reg8) (v : Byte) : (s.setReg8 r v).ip0 = s.ip0 := rfl
@[simp] theorem State.setReg8_pending (s : State) (r : Reg8) (v : Byte) : (s.setReg8 r v).pending = s.pending := rfl
@[simp] theorem State.setReg8_intTable (s : State) (r : Reg8) (v : Byte) : (s.setReg8 r v).intTable = s.intTable := rfl
@[simp] theorem State.setReg8_portTable (s : State) (r : Reg8) (v : Byte) : (s.setReg8 r v).portTable = s.portTable := rfl
@[simp] theorem State.setReg8_diag (s : State) (r : Reg8) (v : Byte) : (s.setReg8 r v).diag = s.diag := rfl
@[simp] theorem State.setReg8_mem (s : State) (r : Reg8) (v : Byte) : (s.setReg8 r v).mem = s.mem := rfl
@[simp] theorem State.setReg8_cfg (s : State) (r : Reg8) (v : Byte) : (s.setReg8 r v).cfg = s.cfg := rfl
@[simp] theorem State.setReg8_draws (s : State) (r : Reg8) (v : Byte) : (s.setReg8 r v).draws = s.draws := rfl
@[simp] theorem State.setReg8_readByte (s : State) (r : Reg8) (v : Byte) (sg1 off1 : Word) :
    (s.setReg8 r v).readByte sg1 off1 = s.readByte sg1 off1 := rfl
@[simp] theorem State.setReg8_readWord (s : State) (r : Reg8) (v : Byte) (sg1 off1 : Word) :
    (s.setReg8 r v).readWord sg1 off1 = s.readWord sg1 off1 := rfl
@[simp] theorem State.setReg8_sreg (s : State) (r : Reg8) (v : Byte) (r1 : SReg) : (s.setReg8 r v).sreg r1 = s.sreg r1 := rfl

/-! ### `setSReg` -/

@[simp] theorem State.setSReg_regs (s : State) (r : SReg) (v : Word) : (s.setSReg r v).regs = s.regs := rfl
@[simp] theorem State.setSReg_sregs (s : State) (r : SReg) (v : Word) : (s.setSReg r v).sregs = Machine.setSReg s.sregs r v := rfl
@[simp] theorem State.setSReg_ip (s : State) (r : SReg) (v : Word) : (s.setSReg r v).ip = s.ip := rfl
@[simp] theorem State.setSReg_flags (s : State) (r : SReg) (v : Word) : (s.setSReg r v).flags = s.flags := rfl
@[simp] theorem State.setSReg_pfx (s : State) (r : SReg) (v : Word) : (s.setSReg r v).pfx = s.pfx := rfl
@[simp] theorem State.setSReg_driver (s : State) (r : SReg) (v : Word) : (s.setSReg r v).driver = s.driver := rfl
@[simp] theorem State.setSReg_cs0 (s : State) (r : SReg) (v : Word) : (s.setSReg r v).cs0 = s.cs0 := rfl
@[simp] theorem State.setSReg_ip0 (s : State) (r : SReg) (v : Word) : (s.setSReg r v).ip0 = s.ip0 := rfl
@[simp] theorem State.setSReg_pending (s : State) (r : SReg) (v : Word) : (s.setSReg r v).pending = s.pending := rfl
@[simp] theorem State.setSReg_intTable (s : State) (r : SReg) (v : Word) : (s.setSReg r v).intTable = s.intTable := rfl
@[simp] theorem State.setSReg_portTable (s : State) (r : SReg) (v : Word) : (s.setSReg r v).portTable = s.portTable := rfl
@[simp] theorem State.setSReg_diag (s : State) (r : SReg) (v : Word) : (s.setSReg r v).diag = s.diag := rfl
@[simp] theorem State.setSReg_mem (s : State) (r : SReg) (v : Word) : (s.setSReg r v).mem = s.mem := rfl
@[simp] theorem State.setSReg_cfg (s : State) (r : SReg) (v : Word) : (s.setSReg r v).cfg = s.cfg := rfl
@[simp] theorem State.setSReg_draws (s : State) (r : SReg) (v : Word) : (s.setSReg r v).draws = s.draws := rfl
@[simp] theorem State.setSReg_readByte (s : State) (r : SReg) (v : Word) (sg1 off1 : Word) :
    (s.setSReg r v).readByte sg1 off1 = s.readByte sg1 off1 := rfl
@[simp] theorem State.setSReg_readWord (s : State) (r : SReg) (v : Word) (sg1 off1 : Word) :
    (s.setSReg r v).readWord sg1 off1 = s.readWord sg1 off1 := rfl
@[simp] theorem State.setSReg_reg16 (s : State) (r : SReg) (v : Word) (r1 : Reg16) : (s.setSReg r v).reg16 r1 = s.reg16 r1 := rfl
@[simp] theorem State.setSReg_reg8 (s : State) (r : SReg) (v : Word) (r1 : Reg8) : (s.setSReg r v).reg8 r1 = s.reg8 r1 := rfl

/-! ### `setIp` -/

@[simp] theorem State.setIp_regs (s : State) (v : Word) : (s.setIp v).regs = s.regs := rfl
@[simp] theorem State.setIp_sregs (s : State) (v : Word) : (s.setIp v).sregs = s.sregs := rfl
@[simp] theorem State.setIp_ip (s : State) (v : Word) : (s.setIp v).ip = v := rfl
@[simp] theorem State.setIp_flags (s : State) (v : Word) : (s.setIp v).flags = s.flags := rfl
@[simp] theorem State.setIp_pfx (s : State) (v : Word) : (s.setIp v).pfx = s.pfx := rfl
@[simp] theorem State.setIp_driver (s : State) (v : Word) : (s.setIp v).driver = s.driver := rfl
@[simp] theorem State.setIp_cs0 (s : State) (v : Word) : (s.setIp v).cs0 = s.cs0 := rfl
@[simp] theorem State.setIp_ip0 (s : State) (v : Word) : (s.setIp v).ip0 = s.ip0 := rfl
@[simp] theorem State.setIp_pending (s : State) (v : Word) : (s.setIp v).pending = s.pending := rfl
@[simp] theorem State.setIp_intTable (s : State) (v : Word) : (s.setIp v).intTable = s.intTable := rfl
@[simp] theorem State.setIp_portTable (s : State) (v : Word) : (s.setIp v).portTable = s.portTable := rfl
@[simp] theorem State.setIp_diag (s : State) (v : Word) : (s.setIp v).diag = s.diag := rfl
@[simp] theorem State.setIp_mem (s : State) (v : Word) : (s.setIp v).mem = s.mem := rfl
@[simp] theorem State.setIp_cfg (s : State) (v : Word) : (s.setIp v).cfg = s.cfg := rfl
@[simp] theorem State.setIp_draws (s : State) (v : Word) : (s.setIp v).draws = s.draws := rfl
@[simp] theorem State.setIp_readByte (s : State) (v : Word) (sg1 off1 : Word) :
    (s.setIp v).readByte sg1 off1 = s.readByte sg1 off1 := rfl
@[simp] theorem State.setIp_readWord (s : State) (v : Word) (sg1 off1 : Word) :
    (s.setIp v).readWord sg1 off1 = s.readWord sg1 off1 := rfl
@[simp] theorem State.setIp_reg16 (s : State) (v : Word) (r1 : Reg16) : (s.setIp v).reg16 r1 = s.reg16 r1 := rfl
@[simp] theorem State.setIp_reg8 (s : State) (v : Word) (r1 : Reg8) : (s.setIp v).reg8 r1 = s.reg8 r1 := rfl
@[simp] theorem State.setIp_sreg (s : State) (v : Word) (r1 : SReg) : (s.setIp v).sreg r1 = s.sreg r1 := rfl

/-! ### `setCsIp` -/

@[simp] theorem State.setCsIp_regs (s : State) (sg off : Word) : (s.setCsIp sg off).regs = s.regs := rfl
@[simp] theorem State.setCsIp_sregs (s : State) (sg off : Word) : (s.setCsIp sg off).sregs = Machine.setSReg s.sregs .cs sg := rfl
@[simp] theorem State.setCsIp_ip (s : State) (sg off : Word) : (s.setCsIp sg off).ip = off := rfl
@[simp] theorem State.setCsIp_flags (s : State) (sg off : Word) : (s.setCsIp sg off).flags = s.flags := rfl
@[simp] theorem State.setCsIp_pfx (s : State) (sg off : Word) : (s.setCsIp sg off).pfx = s.pfx := rfl
@[simp] theorem State.setCsIp_driver (s : State) (sg off : Word) : (s.setCsIp sg off).driver = s.driver := rfl
@[simp] theorem State.setCsIp_cs0 (s : State) (sg off : Word) : (s.setCsIp sg off).cs0 = s.cs0 := rfl
@[simp] theorem State.setCsIp_ip0 (s : State) (sg off : Word) : (s.setCsIp sg off).ip0 = s.ip0 := rfl
@[simp] theorem State.setCsIp_pending (s : State) (sg off : Word) : (s.setCsIp sg off).pending = s.pending := rfl
@[simp] theorem State.setCsIp_intTable (s : State) (sg off : Word) : (s.setCsIp sg off).intTable = s.intTable := rfl
@[simp] theorem State.setCsIp_portTable (s : State) (sg off : Word) : (s.setCsIp sg off).portTable = s.portTable := rfl
@[simp] theorem State.setCsIp_diag (s : State) (sg off : Word) : (s.setCsIp sg off).diag = s.diag := rfl
@[simp] theorem State.setCsIp_mem (s : State) (sg off : Word) : (s.setCsIp sg off).mem = s.mem := rfl
@[simp] theorem State.setCsIp_cfg (s : State) (sg off : Word) : (s.setCsIp sg off).cfg = s.cfg := rfl
@[simp] theorem State.setCsIp_draws (s : State) (sg off : Word) : (s.setCsIp sg off).draws = s.draws := rfl
@[simp] theorem State.setCsIp_readByte (s : State) (sg off : Word) (sg1 off1 : Word) :
    (s.setCsIp sg off).readByte sg1 off1 = s.readByte sg1 off1 := rfl
@[simp] theorem State.setCsIp_readWord (s : State) (sg off : Word) (sg1 off1 : Word) :
    (s.setCsIp sg off).readWord sg1 off1 = s.readWord sg1 off1 := rfl
@[simp] theorem State.setCsIp_reg16 (s : State) (sg off : Word) (r1 : Reg16) : (s.setCsIp sg off).reg16 r1 = s.reg16 r1 := rfl
@[simp] theorem State.setCsIp_reg8 (s : State) (sg off : Word) (r1 : Reg8) : (s.setCsIp sg off).reg8 r1 = s.reg8 r1 := rfl

/-! ### `writeByte` -/

@[simp] theorem State.writeByte_regs (s : State) (sg off : Word) (v : Byte) : (s.writeByte sg off v).regs = s.regs := rfl
@[simp] theorem State.writeByte_sregs (s : State) (sg off : Word) (v : Byte) : (s.writeByte sg off v).sregs = s.sregs := rfl
@[simp] theorem State.writeByte_ip (s : State) (sg off : Word) (v : Byte) : (s.writeByte sg off v).ip = s.ip := rfl
@[simp] theorem State.writeByte_flags (s : State) (sg off : Word) (v : Byte) : (s.writeByte sg off v).flags = s.flags := rfl
@[simp] theorem State.writeByte_pfx (s : State) (sg off : Word) (v : Byte) : (s.writeByte sg off v).pfx = s.pfx := rfl
@[simp] theorem State.writeByte_driver (s : State) (sg off : Word) (v : Byte) : (s.writeByte sg off v).driver = s.driver := rfl
@[simp] theorem State.writeByte_cs0 (s : State) (sg off : Word) (v : Byte) : (s.writeByte sg off v).cs0 = s.cs0 := rfl
@[simp] theorem State.writeByte_ip0 (s : State) (sg off : Word) (v : Byte) : (s.writeByte sg off v).ip0 = s.ip0 := rfl
@[simp] theorem State.writeByte_pending (s : State) (sg off : Word) (v : Byte) : (s.writeByte sg off v).pending = s.pending := rfl
@[simp] theorem State.writeByte_intTable (s : State) (sg off : Word) (v : Byte) : (s.writeByte sg off v).intTable = s.intTable := rfl
@[simp] theorem State.writeByte_portTable (s : State) (sg off : Word) (v : Byte) : (s.writeByte sg off v).portTable = s.portTable := rfl
@[simp] theorem State.writeByte_diag (s : State) (sg off : Word) (v : Byte) : (s.writeByte sg off v).diag = s.diag := rfl
@[simp] theorem State.writeByte_mem (s : State) (sg off : Word) (v : Byte) : (s.writeByte sg off v).mem = Memory.write s.mem (phys sg off) v := rfl
@[simp] theorem State.writeByte_cfg (s : State) (sg off : Word) (v : Byte) : (s.writeByte sg off v).cfg = s.cfg := rfl
@[simp] theorem State.writeByte_draws (s : State) (sg off : Word) (v : Byte) : (s.writeByte sg off v).draws = s.draws := rfl
@[simp] theorem State.writeByte_reg16 (s : State) (sg off : Word) (v : Byte) (r1 : Reg16) : (s.writeByte sg off v).reg16 r1 = s.reg16 r1 := rfl
@[simp] theorem State.writeByte_reg8 (s : State) (sg off : Word) (v : Byte) (r1 : Reg8) : (s.writeByte sg off v).reg8 r1 = s.reg8 r1 := rfl
@[simp] theorem State.writeByte_sreg (s : State) (sg off : Word) (v : Byte) (r1 : SReg) : (s.writeByte sg off v).sreg r1 = s.sreg r1 := rfl

/-! ### `writeWord` -/

@[simp] theorem State.writeWord_regs (s : State) (sg off v : Word) : (s.writeWord sg off v).regs = s.regs := rfl
@[simp] theorem State.writeWord_sregs (s : State) (sg off v : Word) : (s.writeWord sg off v).sregs = s.sregs := rfl
@[simp] theorem State.writeWord_ip (s : State) (sg off v : Word) : (s.writeWord sg off v).ip = s.ip := rfl
@[simp] theorem State.writeWord_flags (s : State) (sg off v : Word) : (s.writeWord sg off v).flags = s.flags := rfl
@[simp] theorem State.writeWord_pfx (s : State) (sg off v : Word) : (s.writeWord sg off v).pfx = s.pfx := rfl
@[simp] theorem State.writeWord_driver (s : State) (sg off v : Word) : (s.writeWord sg off v).driver = s.driver := rfl
@[simp] theorem State.writeWord_cs0 (s : State) (sg off v : Word) : (s.writeWord sg off v).cs0 = s.cs0 := rfl
@[simp] theorem State.writeWord_ip0 (s : State) (sg off v : Word) : (s.writeWord sg off v).ip0 = s.ip0 := rfl
@[simp] theorem State.writeWord_pending (s : State) (sg off v : Word) : (s.writeWord sg off v).pending = s.pending := rfl
@[simp] theorem State.writeWord_intTable (s : State) (sg off v : Word) : (s.writeWord sg off v).intTable = s.intTable := rfl
@[simp] theorem State.writeWord_portTable (s : State) (sg off v : Word) : (s.writeWord sg off v).portTable = s.portTable := rfl
@[simp] theorem State.writeWord_diag (s : State) (sg off v : Word) : (s.writeWord sg off v).diag = s.diag := rfl
@[simp] theorem State.writeWord_cfg (s : State) (sg off v : Word) : (s.writeWord sg off v).cfg = s.cfg := rfl
@[simp] theorem State.writeWord_draws (s : State) (sg off v : Word) : (s.writeWord sg off v).draws = s.draws := rfl
@[simp] theorem State.writeWord_reg16 (s : State) (sg off v : Word) (r1 : Reg16) : (s.writeWord sg off v).reg16 r1 = s.reg16 r1 := rfl
@[simp] theorem State.writeWord_reg8 (s : State) (sg off v : Word) (r1 : Reg8) : (s.writeWord sg off v).reg8 r1 = s.reg8 r1 := rfl
@[simp] theorem State.writeWord_sreg (s : State) (sg off v : Word) (r1 : SReg) : (s.writeWord sg off v).sreg r1 = s.sreg r1 := rfl

/-! ### `setFlagsFromImage` -/

@[simp] theorem State.setFlagsFromImage_regs (s : State) (v : Word) : (s.setFlagsFromImage v).regs = s.regs := rfl
@[simp] theorem State.setFlagsFromImage_sregs (s : State) (v : Word) : (s.setFlagsFromImage v).sregs = s.sregs := rfl
@[simp] theorem State.setFlagsFromImage_ip (s : State) (v : Word) : (s.setFlagsFromImage v).ip = s.ip := rfl
@[simp] theorem State.setFlagsFromImage_flags (s : State) (v : Word) : (s.setFlagsFromImage v).flags = Flags.ofImage v := rfl
@[simp] theorem State.setFlagsFromImage_pfx (s : State) (v : Word) : (s.setFlagsFromImage v).pfx = s.pfx := rfl
@[simp] theorem State.setFlagsFromImage_driver (s : State) (v : Word) : (s.setFlagsFromImage v).driver = s.driver := rfl
@[simp] theorem State.setFlagsFromImage_cs0 (s : State) (v : Word) : (s.setFlagsFromImage v).cs0 = s.cs0 := rfl
@[simp] theorem State.setFlagsFromImage_ip0 (s : State) (v : Word) : (s.setFlagsFromImage v).ip0 = s.ip0 := rfl
@[simp] theorem State.setFlagsFromImage_pending (s : State) (v : Word) : (s.setFlagsFromImage v).pending = s.pending := rfl
@[simp] theorem State.setFlagsFromImage_intTable (s : State) (v : Word) : (s.setFlagsFromImage v).intTable = s.intTable := rfl
@[simp] theorem State.setFlagsFromImage_portTable (s : State) (v : Word) : (s.setFlagsFromImage v).portTable = s.portTable := rfl
@[simp] theorem State.setFlagsFromImage_diag (s : State) (v : Word) : (s.setFlagsFromImage v).diag = s.diag := rfl
@[simp] theorem State.setFlagsFromImage_mem (s : State) (v : Word) : (s.setFlagsFromImage v).mem = s.mem := rfl
@[simp] theorem State.setFlagsFromImage_cfg (s : State) (v : Word) : (s.setFlagsFromImage v).cfg = s.cfg := rfl
@[simp] theorem State.setFlagsFromImage_draws (s : State) (v : Word) : (s.setFlagsFromImage v).draws = s.draws := rfl
@[simp] theorem State.setFlagsFromImage_readByte (s : State) (v : Word) (sg1 off1 : Word) :
    (s.setFlagsFromImage v).readByte sg1 off1 = s.readByte sg1 off1 := rfl
@[simp] theorem State.setFlagsFromImage_readWord (s : State) (v : Word) (sg1 off1 : Word) :
    (s.setFlagsFromImage v).readWord sg1 off1 = s.readWord sg1 off1 := rfl
@[simp] theorem State.setFlagsFromImage_reg16 (s : State) (v : Word) (r1 : Reg16) : (s.setFlagsFromImage v).reg16 r1 = s.reg16 r1 := rfl
@[simp] theorem State.setFlagsFromImage_reg8 (s : State) (v : Word) (r1 : Reg8) : (s.setFlagsFromImage v).reg8 r1 = s.reg8 r1 := rfl
@[simp] theorem State.setFlagsFromImage_sreg (s : State) (v : Word) (r1 : SReg) : (s.setFlagsFromImage v).sreg r1 = s.sreg r1 := rfl

/-! ### `applyFlags` -/

@[simp] theorem State.applyFlags_regs (s : State) (e : FlagEffect) : (s.applyFlags e).regs = s.regs := rfl
@[simp] theorem State.applyFlags_sregs (s : State) (e : FlagEffect) : (s.applyFlags e).sregs = s.sregs := rfl
@[simp] theorem State.applyFlags_ip (s : State) (e : FlagEffect) : (s.applyFlags e).ip = s.ip := rfl
@[simp] theorem State.applyFlags_flags (s : State) (e : FlagEffect) : (s.applyFlags e).flags = e.apply s.flags s.draws := rfl
@[simp] theorem State.applyFlags_pfx (s : State) (e : FlagEffect) : (s.applyFlags e).pfx = s.pfx := rfl
@[simp] theorem State.applyFlags_driver (s : State) (e : FlagEffect) : (s.applyFlags e).driver = s.driver := rfl
@[simp] theorem State.applyFlags_cs0 (s : State) (e : FlagEffect) : (s.applyFlags e).cs0 = s.cs0 := rfl
@[simp] theorem State.applyFlags_ip0 (s : State) (e : FlagEffect) : (s.applyFlags e).ip0 = s.ip0 := rfl
@[simp] theorem State.applyFlags_pending (s : State) (e : FlagEffect) : (s.applyFlags e).pending = s.pending := rfl
@[simp] theorem State.applyFlags_intTable (s : State) (e : FlagEffect) : (s.applyFlags e).intTable = s.intTable := rfl
@[simp] theorem State.applyFlags_portTable (s : State) (e : FlagEffect) : (s.applyFlags e).portTable = s.portTable := rfl
@[simp] theorem State.applyFlags_diag (s : State) (e : FlagEffect) : (s.applyFlags e).diag = s.diag := rfl
@[simp] theorem State.applyFlags_mem (s : State) (e : FlagEffect) : (s.applyFlags e).mem = s.mem := rfl
@[simp] theorem State.applyFlags_cfg (s : State) (e : FlagEffect) : (s.applyFlags e).cfg = s.cfg := rfl
@[simp] theorem State.applyFlags_draws (s : State) (e : FlagEffect) : (s.applyFlags e).draws = s.draws + e.cost := rfl
@[simp] theorem State.applyFlags_readByte (s : State) (e : FlagEffect) (sg1 off1 : Word) :
    (s.applyFlags e).readByte sg1 off1 = s.readByte sg1 off1 := rfl
@[simp] theorem State.applyFlags_readWord (s : State) (e : FlagEffect) (sg1 off1 : Word) :
    (s.applyFlags e).readWord sg1 off1 = s.readWord sg1 off1 := rfl
@[simp] theorem State.applyFlags_reg16 (s : State) (e : FlagEffect) (r1 : Reg16) : (s.applyFlags e).reg16 r1 = s.reg16 r1 := rfl
@[simp] theorem State.applyFlags_reg8 (s : State) (e : FlagEffect) (r1 : Reg8) : (s.applyFlags e).reg8 r1 = s.reg8 r1 := rfl
@[simp] theorem State.applyFlags_sreg (s : State) (e : FlagEffect) (r1 : SReg) : (s.applyFlags e).sreg r1 = s.sreg r1 := rfl

/-! ### `push16` -/

@[simp] theorem State.push16_regs (s : State) (v : Word) : (s.push16 v).regs = Machine.setReg16 s.regs .sp (s.reg16 .sp - 2#16) := rfl
@[simp] theorem State.push16_sregs (s : State) (v : Word) : (s.push16 v).sregs = s.sregs := rfl
@[simp] theorem State.push16_ip (s : State) (v : Word) : (s.push16 v).ip = s.ip := rfl
@[simp] theorem State.push16_flags (s : State) (v : Word) : (s.push16 v).flags = s.flags := rfl
@[simp] theorem State.push16_pfx (s : State) (v : Word) : (s.push16 v).pfx = s.pfx := rfl
@[simp] theorem State.push16_driver (s : State) (v : Word) : (s.push16 v).driver = s.driver := rfl
@[simp] theorem State.push16_cs0 (s : State) (v : Word) : (s.push16 v).cs0 = s.cs0 := rfl
@[simp] theorem State.push16_ip0 (s : State) (v : Word) : (s.push16 v).ip0 = s.ip0 := rfl
@[simp] theorem State.push16_pending (s : State) (v : Word) : (s.push16 v).pending = s.pending := rfl
@[simp] theorem State.push16_intTable (s : State) (v : Word) : (s.push16 v).intTable = s.intTable := rfl
@[simp] theorem State.push16_portTable (s : State) (v : Word) : (s.push16 v).portTable = s.portTable := rfl
@[simp] theorem State.push16_diag (s : State) (v : Word) : (s.push16 v).diag = s.diag := rfl
@[simp] theorem State.push16_cfg (s : State) (v : Word) : (s.push16 v).cfg = s.cfg := rfl
@[simp] theorem State.push16_draws (s : State) (v : Word) : (s.push16 v).draws = s.draws := rfl
@[simp] theorem State.push16_sreg (s : State) (v : Word) (r1 : SReg) : (s.push16 v).sreg r1 = s.sreg r1 := rfl

/-! ### `pop16` -/

@[simp] theorem State.pop16_regs (s : State) : (s.pop16.2).regs = Machine.setReg16 s.regs .sp (s.reg16 .sp + 2#16) := rfl
@[simp] theorem State.pop16_sregs (s : State) : (s.pop16.2).sregs = s.sregs := rfl
@[simp] theorem State.pop16_ip (s : State) : (s.pop16.2).ip = s.ip := rfl
@[simp] theorem State.pop16_flags (s : State) : (s.pop16.2).flags = s.flags := rfl
@[simp] theorem State.pop16_pfx (s : State) : (s.pop16.2).pfx = s.pfx := rfl
@[simp] theorem State.pop16_driver (s : State) : (s.pop16.2).driver = s.driver := rfl
@[simp] theorem State.pop16_cs0 (s : State) : (s.pop16.2).cs0 = s.cs0 := rfl
@[simp] theorem State.pop16_ip0 (s : State) : (s.pop16.2).ip0 = s.ip0 := rfl
@[simp] theorem State.pop16_pending (s : State) : (s.pop16.2).pending = s.pending := rfl
@[simp] theorem State.pop16_intTable (s : State) : (s.pop16.2).intTable = s.intTable := rfl
@[simp] theorem State.pop16_portTable (s : State) : (s.pop16.2).portTable = s.portTable := rfl
@[simp] theorem State.pop16_diag (s : State) : (s.pop16.2).diag = s.diag := rfl
@[simp] theorem State.pop16_mem (s : State) : (s.pop16.2).mem = s.mem := rfl
@[simp] theorem State.pop16_cfg (s : State) : (s.pop16.2).cfg = s.cfg := rfl
@[simp] theorem State.pop16_draws (s : State) : (s.pop16.2).draws = s.draws := rfl
@[simp] theorem State.pop16_readByte (s : State) (sg1 off1 : Word) :
    (s.pop16.2).readByte sg1 off1 = s.readByte sg1 off1 := rfl
@[simp] theorem State.pop16_readWord (s : State) (sg1 off1 : Word) :
    (s.pop16.2).readWord sg1 off1 = s.readWord sg1 off1 := rfl
@[simp] theorem State.pop16_sreg (s : State) (r1 : SReg) : (s.pop16.2).sreg r1 = s.sreg r1 := rfl

end Sys2Proof.Machine
end

