-- ==== Sys2Proof/Laws/Memory.lean ====
section
/-! SUPPORT. Tables and memory: what is read after a write, and that every memory operation keeps the canonical form. -/

namespace Sys2Proof.Machine

open Sys2Proof

/-! ## Sparse tables -/

theorem lookup_insert {α : Type} (t : List (Nat × α)) (a : Nat) (v : α) (b : Nat) :
    lookup (insert t a v) b = if a = b then some v else lookup t b := by
  induction t with
  | nil => simp [insert, lookup]
  | cons c r ih =>
    obtain ⟨k, u⟩ := c
    simp only [insert]
    split
    · simp [lookup]
    · split
      · subst_vars; simp only [lookup]; split <;> rfl
      · simp only [lookup, ih]
        split
        · rename_i h; subst h; simp [*]
        · rfl

theorem lookup_erase {α : Type} (t : List (Nat × α)) (a b : Nat) :
    lookup (erase t a) b = if a = b then none else lookup t b := by
  induction t with
  | nil => simp [erase, lookup]
  | cons c r ih =>
    obtain ⟨k, u⟩ := c
    simp only [erase]
    split
    · rename_i h; subst h
      simp only [ih, lookup]; split <;> rfl
    · simp only [lookup, ih]
      split
      · rename_i hk h; subst h; rw [if_neg (Ne.symm hk)]
      · rfl

theorem mem_insert {α : Type} {t : List (Nat × α)} {a : Nat} {v : α} {x : Nat × α}
    (h : x ∈ insert t a v) : x = (a, v) ∨ x ∈ t := by
  induction t with
  | nil => simpa [insert] using h
  | cons c r ih =>
    obtain ⟨k, u⟩ := c
    simp only [insert] at h
    split at h
    · simpa using h
    · split at h
      · simp only [List.mem_cons] at h ⊢; tauto
      · simp only [List.mem_cons] at h ⊢
        rcases h with h | h
        · exact .inr (.inl h)
        · rcases ih h with h | h
          · exact .inl h
          · exact .inr (.inr h)

theorem mem_erase {α : Type} {t : List (Nat × α)} {a : Nat} {x : Nat × α} (h : x ∈ erase t a) : x ∈ t := by
  induction t with
  | nil => simp [erase] at h
  | cons c r ih =>
    obtain ⟨k, u⟩ := c
    simp only [erase] at h
    split at h
    · exact List.mem_cons_of_mem _ (ih h)
    · rcases List.mem_cons.mp h with h | h
      · exact h ▸ List.mem_cons_self
      · exact List.mem_cons_of_mem _ (ih h)

theorem rising_insert {α : Type} {t : List (Nat × α)} (a : Nat) (v : α) (h : Rising t) : Rising (insert t a v) := by
  induction t with
  | nil => simp [insert, Rising]
  | cons c r ih =>
    obtain ⟨k, u⟩ := c
    have hr := List.pairwise_cons.mp h
    simp only [insert]
    split
    · rename_i hk
      refine List.pairwise_cons.mpr ⟨fun x hx => ?_, h⟩
      rcases List.mem_cons.mp hx with hx | hx
      · subst hx; exact hk
      · exact Nat.lt_trans hk (hr.1 x hx)
    · split
      · rename_i hk; subst hk
        exact List.pairwise_cons.mpr ⟨hr.1, hr.2⟩
      · rename_i h1 h2
        refine List.pairwise_cons.mpr ⟨fun x hx => ?_, ih hr.2⟩
        rcases mem_insert hx with hx | hx
        · subst hx; simp only; omega
        · exact hr.1 x hx

theorem rising_erase {α : Type} {t : List (Nat × α)} (a : Nat) (h : Rising t) : Rising (erase t a) := by
  induction t with
  | nil => simp [erase, Rising]
  | cons c r ih =>
    obtain ⟨k, u⟩ := c
    have hr := List.pairwise_cons.mp h
    simp only [erase]
    split
    · exact ih hr.2
    · exact List.pairwise_cons.mpr ⟨fun x hx => hr.1 x (mem_erase hx), ih hr.2⟩

/-! ## Memory -/

/-- A read after a write. -/
theorem Memory.read_write (m : Memory) (a : Nat) (v : Byte) (b : Nat) :
    Memory.read (Memory.write m a v) b = if a = b then v else Memory.read m b := by
  unfold Memory.read Memory.write
  split
  · rw [lookup_erase]; split <;> simp [*]
  · rw [lookup_insert]; split <;> simp

/-- A write keeps the canonical form. -/
theorem Memory.wf_write {m : Memory} {a : Nat} (v : Byte) (h : Memory.wf m) (ha : a < 2 ^ 20) :
    Memory.wf (Memory.write m a v) := by
  unfold Memory.write
  split
  · exact ⟨rising_erase a h.1, fun c hc => h.2 c (mem_erase hc)⟩
  · rename_i hv
    refine ⟨rising_insert a v h.1, fun c hc => ?_⟩
    rcases mem_insert hc with hc | hc
    · subst hc; exact ⟨ha, hv⟩
    · exact h.2 c hc

theorem applyWrites_wf {m : Memory} (l : List (BitVec 20 × Byte)) (h : Memory.wf m) : Memory.wf (applyWrites m l) := by
  induction l generalizing m with
  | nil => exact h
  | cons c l ih => exact ih (Memory.wf_write c.2 h c.1.isLt)

theorem phys_lt (sg off : Word) : phys sg off < 2 ^ 20 := Nat.mod_lt _ (by decide)

/-- Two offsets of one segment are two physical addresses. -/
theorem phys_inj {sg off1 off2 : Word} (h : phys sg off1 = phys sg off2) : off1 = off2 := by
  unfold phys at h
  have h1 := off1.isLt
  have h2 := off2.isLt
  apply BitVec.eq_of_toNat_eq
  omega

theorem phys_succ_ne (sg off : Word) : phys sg off ≠ phys sg (off + 1#16) := fun h => by
  have := phys_inj h
  bv_omega

/-! ## Bytes and words of a state -/

@[simp] theorem wordOf_loHi (v : Word) : wordOf (loByte v) (hiByte v) = v := by
  unfold wordOf loByte hiByte
  ext i hi
  simp only [BitVec.getElem_append, BitVec.getElem_extractLsb']
  split
  · rw [Nat.zero_add, BitVec.getLsbD_eq_getElem hi]
  · rw [show 8 + (i - 8) = i by omega, BitVec.getLsbD_eq_getElem hi]

@[simp] theorem loByte_wordOf (lo hi : Byte) : loByte (wordOf lo hi) = lo := by
  unfold wordOf loByte
  ext i h
  simp only [BitVec.getElem_extractLsb', BitVec.getLsbD_append]
  simp [h]

@[simp] theorem hiByte_wordOf (lo hi : Byte) : hiByte (wordOf lo hi) = hi := by
  unfold wordOf hiByte
  ext i h
  simp only [BitVec.getElem_extractLsb', BitVec.getLsbD_append]
  simp [h]

/-- A byte read depends on memory alone. -/
theorem readByte_of_mem {s t : State} (h : t.mem = s.mem) (sg off : Word) : t.readByte sg off = s.readByte sg off := by
  unfold State.readByte; rw [h]

/-- A word read depends on memory alone. -/
theorem readWord_of_mem {s t : State} (h : t.mem = s.mem) (sg off : Word) : t.readWord sg off = s.readWord sg off := by
  unfold State.readWord; rw [readByte_of_mem h, readByte_of_mem h]

theorem readByte_writeByte (s : State) (sg off : Word) (v : Byte) (sg1 off1 : Word) :
    (s.writeByte sg off v).readByte sg1 off1 = if phys sg off = phys sg1 off1 then v else s.readByte sg1 off1 :=
  Memory.read_write _ _ _ _

@[simp] theorem readByte_writeByte_same (s : State) (sg off : Word) (v : Byte) :
    (s.writeByte sg off v).readByte sg off = v := by simp [readByte_writeByte]

theorem readByte_writeByte_ne (s : State) {sg off sg1 off1 : Word} (v : Byte) (h : phys sg1 off1 ≠ phys sg off) :
    (s.writeByte sg off v).readByte sg1 off1 = s.readByte sg1 off1 := by
  rw [readByte_writeByte, if_neg h.symm]

/-- A byte read after a word write: one of the two new bytes, or as before. -/
theorem readByte_writeWord (s : State) (sg off v sg1 off1 : Word) :
    (s.writeWord sg off v).readByte sg1 off1 =
      if phys sg (off + 1#16) = phys sg1 off1 then hiByte v
      else if phys sg off = phys sg1 off1 then loByte v
      else s.readByte sg1 off1 := by
  unfold State.writeWord
  rw [readByte_writeByte, readByte_writeByte]

theorem readByte_writeWord_ne (s : State) {sg off sg1 off1 : Word} (v : Word) (h : phys sg1 off1 ≠ phys sg off)
    (h1 : phys sg1 off1 ≠ phys sg (off + 1#16)) :
    (s.writeWord sg off v).readByte sg1 off1 = s.readByte sg1 off1 := by
  rw [readByte_writeWord, if_neg h1.symm, if_neg h.symm]

@[simp] theorem readWord_writeWord_same (s : State) (sg off v : Word) : (s.writeWord sg off v).readWord sg off = v := by
  unfold State.readWord
  rw [readByte_writeWord, readByte_writeWord, if_neg (phys_succ_ne sg off).symm, if_pos rfl, if_pos rfl, wordOf_loHi]

theorem writeByte_wf {s : State} (sg off : Word) (v : Byte) (h : Memory.wf s.mem) :
    Memory.wf (s.writeByte sg off v).mem := Memory.wf_write v h (phys_lt sg off)

theorem writeWord_wf {s : State} (sg off v : Word) (h : Memory.wf s.mem) : Memory.wf (s.writeWord sg off v).mem :=
  writeByte_wf _ _ _ (writeByte_wf _ _ _ h)

end Sys2Proof.Machine
end

