-- ==== Sys2Proof/Laws/Registers.lean ====
section
/-! SUPPORT. Registers: what is read after a write, whole registers and byte halves (R24). -/

namespace Sys2Proof.Machine

open Sys2Proof

theorem getReg16_setReg16 (g : Regs) (r : Reg16) (v : Word) (r1 : Reg16) :
    getReg16 (setReg16 g r v) r1 = if r = r1 then v else getReg16 g r1 := by
  cases r <;> cases r1 <;> rfl

@[simp] theorem getReg16_setReg16_same (g : Regs) (r : Reg16) (v : Word) : getReg16 (setReg16 g r v) r = v := by
  cases r <;> rfl

theorem getReg16_setReg16_ne (g : Regs) {r r1 : Reg16} (v : Word) (h : r1 ≠ r) :
    getReg16 (setReg16 g r v) r1 = getReg16 g r1 := by
  rw [getReg16_setReg16, if_neg h.symm]

theorem getSReg_setSReg (g : SRegs) (r : SReg) (v : Word) (r1 : SReg) :
    getSReg (setSReg g r v) r1 = if r = r1 then v else getSReg g r1 := by
  cases r <;> cases r1 <;> rfl

theorem getReg8_setReg8 (g : Regs) (r : Reg8) (v : Byte) (r1 : Reg8) :
    getReg8 (setReg8 g r v) r1 = if r = r1 then v else getReg8 g r1 := by
  cases r <;> cases r1 <;>
    simp [getReg8, setReg8, parent, isHigh, getReg16, setReg16]

@[simp] theorem getReg8_setReg8_same (g : Regs) (r : Reg8) (v : Byte) : getReg8 (setReg8 g r v) r = v := by
  rw [getReg8_setReg8, if_pos rfl]

/-- A byte write leaves every 16-bit register but the parent as it was. -/
theorem getReg16_setReg8_ne (g : Regs) {r : Reg8} {r1 : Reg16} (v : Byte) (h : r1 ≠ parent r) :
    getReg16 (setReg8 g r v) r1 = getReg16 g r1 := by
  unfold setReg8
  rw [getReg16_setReg16_ne _ _ h]

theorem State.reg16_setReg16 (s : State) (r : Reg16) (v : Word) (r1 : Reg16) :
    (s.setReg16 r v).reg16 r1 = if r = r1 then v else s.reg16 r1 := getReg16_setReg16 _ _ _ _

theorem State.reg8_setReg8 (s : State) (r : Reg8) (v : Byte) (r1 : Reg8) :
    (s.setReg8 r v).reg8 r1 = if r = r1 then v else s.reg8 r1 := getReg8_setReg8 _ _ _ _

theorem State.sreg_setSReg (s : State) (r : SReg) (v : Word) (r1 : SReg) :
    (s.setSReg r v).sreg r1 = if r = r1 then v else s.sreg r1 := getSReg_setSReg _ _ _ _

/-- A register file is its eight registers. -/
theorem Regs.ext_get {g h : Regs} (e : ∀ r, getReg16 g r = getReg16 h r) : g = h := by
  obtain ⟨ax, cx, dx, bx, sp, bp, si, di⟩ := g
  obtain ⟨ax', cx', dx', bx', sp', bp', si', di'⟩ := h
  have h1 := e .ax; have h2 := e .cx; have h3 := e .dx; have h4 := e .bx
  have h5 := e .sp; have h6 := e .bp; have h7 := e .si; have h8 := e .di
  simp only [getReg16] at h1 h2 h3 h4 h5 h6 h7 h8
  subst_vars; rfl

/-- Four segment registers are the file. -/
theorem SRegs.ext_get {g h : SRegs} (e : ∀ r, getSReg g r = getSReg h r) : g = h := by
  obtain ⟨es, cs, ss, ds⟩ := g
  obtain ⟨es', cs', ss', ds'⟩ := h
  have h1 := e .es; have h2 := e .cs; have h3 := e .ss; have h4 := e .ds
  simp only [getSReg] at h1 h2 h3 h4
  subst_vars; rfl

end Sys2Proof.Machine
end

