-- ==== Sys2Proof/Laws/Frames.lean ====
section
/-! SUPPORT. Operand writes and frames: which fields an operand write leaves, and that it does what `Writes8`, `Writes16`,
`Pushed` of `Safety.lean` say. -/

namespace Sys2Proof.Machine

open Sys2Proof

@[simp] theorem State.writeOp8_sregs (s : State) (x : Loc Reg8) (v : Byte) : (s.writeOp8 x v).sregs = s.sregs := by
  cases x <;> rfl
@[simp] theorem State.writeOp8_ip (s : State) (x : Loc Reg8) (v : Byte) : (s.writeOp8 x v).ip = s.ip := by
  cases x <;> rfl
@[simp] theorem State.writeOp8_flags (s : State) (x : Loc Reg8) (v : Byte) : (s.writeOp8 x v).flags = s.flags := by
  cases x <;> rfl
@[simp] theorem State.writeOp8_pfx (s : State) (x : Loc Reg8) (v : Byte) : (s.writeOp8 x v).pfx = s.pfx := by
  cases x <;> rfl
@[simp] theorem State.writeOp8_driver (s : State) (x : Loc Reg8) (v : Byte) : (s.writeOp8 x v).driver = s.driver := by
  cases x <;> rfl
@[simp] theorem State.writeOp8_cs0 (s : State) (x : Loc Reg8) (v : Byte) : (s.writeOp8 x v).cs0 = s.cs0 := by
  cases x <;> rfl
@[simp] theorem State.writeOp8_ip0 (s : State) (x : Loc Reg8) (v : Byte) : (s.writeOp8 x v).ip0 = s.ip0 := by
  cases x <;> rfl
@[simp] theorem State.writeOp8_pending (s : State) (x : Loc Reg8) (v : Byte) : (s.writeOp8 x v).pending = s.pending := by
  cases x <;> rfl
@[simp] theorem State.writeOp8_intTable (s : State) (x : Loc Reg8) (v : Byte) : (s.writeOp8 x v).intTable = s.intTable := by
  cases x <;> rfl
@[simp] theorem State.writeOp8_portTable (s : State) (x : Loc Reg8) (v : Byte) : (s.writeOp8 x v).portTable = s.portTable := by
  cases x <;> rfl
@[simp] theorem State.writeOp8_diag (s : State) (x : Loc Reg8) (v : Byte) : (s.writeOp8 x v).diag = s.diag := by
  cases x <;> rfl
@[simp] theorem State.writeOp8_cfg (s : State) (x : Loc Reg8) (v : Byte) : (s.writeOp8 x v).cfg = s.cfg := by
  cases x <;> rfl
@[simp] theorem State.writeOp8_draws (s : State) (x : Loc Reg8) (v : Byte) : (s.writeOp8 x v).draws = s.draws := by
  cases x <;> rfl

@[simp] theorem State.writeOp16_sregs (s : State) (x : Loc Reg16) (v : Word) : (s.writeOp16 x v).sregs = s.sregs := by
  cases x <;> rfl
@[simp] theorem State.writeOp16_ip (s : State) (x : Loc Reg16) (v : Word) : (s.writeOp16 x v).ip = s.ip := by
  cases x <;> rfl
@[simp] theorem State.writeOp16_flags (s : State) (x : Loc Reg16) (v : Word) : (s.writeOp16 x v).flags = s.flags := by
  cases x <;> rfl
@[simp] theorem State.writeOp16_pfx (s : State) (x : Loc Reg16) (v : Word) : (s.writeOp16 x v).pfx = s.pfx := by
  cases x <;> rfl
@[simp] theorem State.writeOp16_driver (s : State) (x : Loc Reg16) (v : Word) : (s.writeOp16 x v).driver = s.driver := by
  cases x <;> rfl
@[simp] theorem State.writeOp16_cs0 (s : State) (x : Loc Reg16) (v : Word) : (s.writeOp16 x v).cs0 = s.cs0 := by
  cases x <;> rfl
@[simp] theorem State.writeOp16_ip0 (s : State) (x : Loc Reg16) (v : Word) : (s.writeOp16 x v).ip0 = s.ip0 := by
  cases x <;> rfl
@[simp] theorem State.writeOp16_pending (s : State) (x : Loc Reg16) (v : Word) : (s.writeOp16 x v).pending = s.pending := by
  cases x <;> rfl
@[simp] theorem State.writeOp16_intTable (s : State) (x : Loc Reg16) (v : Word) : (s.writeOp16 x v).intTable = s.intTable := by
  cases x <;> rfl
@[simp] theorem State.writeOp16_portTable (s : State) (x : Loc Reg16) (v : Word) : (s.writeOp16 x v).portTable = s.portTable := by
  cases x <;> rfl
@[simp] theorem State.writeOp16_diag (s : State) (x : Loc Reg16) (v : Word) : (s.writeOp16 x v).diag = s.diag := by
  cases x <;> rfl
@[simp] theorem State.writeOp16_cfg (s : State) (x : Loc Reg16) (v : Word) : (s.writeOp16 x v).cfg = s.cfg := by
  cases x <;> rfl
@[simp] theorem State.writeOp16_draws (s : State) (x : Loc Reg16) (v : Word) : (s.writeOp16 x v).draws = s.draws := by
  cases x <;> rfl

/-- What is read at a location after it was written. -/
@[simp] theorem State.readOp8_writeOp8 (s : State) (x : Loc Reg8) (v : Byte) : (s.writeOp8 x v).readOp8 x = v := by
  cases x with
  | reg r => exact getReg8_setReg8_same _ _ _
  | mem sg ea => exact readByte_writeByte_same _ _ _ _

@[simp] theorem State.readOp16_writeOp16 (s : State) (x : Loc Reg16) (v : Word) : (s.writeOp16 x v).readOp16 x = v := by
  cases x with
  | reg r => exact getReg16_setReg16_same _ _ _
  | mem sg ea => exact readWord_writeWord_same _ _ _ _

theorem writeOp8_wf {s : State} (x : Loc Reg8) (v : Byte) (h : Memory.wf s.mem) : Memory.wf (s.writeOp8 x v).mem := by
  cases x with
  | reg r => exact h
  | mem sg ea => exact writeByte_wf _ _ _ h

theorem writeOp16_wf {s : State} (x : Loc Reg16) (v : Word) (h : Memory.wf s.mem) : Memory.wf (s.writeOp16 x v).mem := by
  cases x with
  | reg r => exact h
  | mem sg ea => exact writeWord_wf _ _ _ h

theorem push16_wf {s : State} (v : Word) (h : Memory.wf s.mem) : Memory.wf (s.push16 v).mem := writeWord_wf _ _ _ h

end Sys2Proof.Machine

namespace Sys2Proof.Claims

open Sys2Proof Sys2Proof.Machine

theorem MemSameBut.of_mem {s t : State} (h : t.mem = s.mem) (l : List Nat) : MemSameBut s t l :=
  fun _ _ _ => readByte_of_mem h _ _

theorem RegsSameBut.of_regs {s t : State} (h : t.regs = s.regs) (l : List Reg16) : RegsSameBut s t l := fun r _ => by
  unfold State.reg16; rw [h]

/-- What a byte operand write leaves and writes depends on registers and memory alone. -/
theorem Writes8.congr {s t u : State} {x : RM8} {v : Byte} (h : Writes8 s t x v) (hr : u.regs = t.regs)
    (hm : u.mem = t.mem) : Writes8 s u x v := by
  have e1 : ∀ r, u.reg8 r = t.reg8 r := fun r => by unfold State.reg8; rw [hr]
  have e2 : ∀ r, u.reg16 r = t.reg16 r := fun r => by unfold State.reg16; rw [hr]
  have e3 : ∀ sg off, u.readByte sg off = t.readByte sg off := fun _ _ => readByte_of_mem hm _ _
  unfold Writes8 RegsSameBut MemSameBut at *
  simp only [e1, e2, e3]
  exact h

theorem Writes16.congr {s t u : State} {x : RM16} {v : Word} (h : Writes16 s t x v) (hr : u.regs = t.regs)
    (hm : u.mem = t.mem) : Writes16 s u x v := by
  have e2 : ∀ r, u.reg16 r = t.reg16 r := fun r => by unfold State.reg16; rw [hr]
  have e3 : ∀ sg off, u.readByte sg off = t.readByte sg off := fun _ _ => readByte_of_mem hm _ _
  have e4 : ∀ sg off, u.readWord sg off = t.readWord sg off := fun _ _ => readWord_of_mem hm _ _
  unfold Writes16 RegsSameBut MemSameBut at *
  simp only [e2, e3, e4]
  exact h

/-- A byte operand write does what `Writes8` says. -/
theorem writes8_writeOp8 (s : State) (x : RM8) (v : Byte) : Writes8 s (s.writeOp8 (s.resolve x) v) x v := by
  cases x with
  | reg r =>
    exact ⟨getReg8_setReg8_same _ _ _, fun r1 h => by
      show getReg8 _ _ = _
      rw [State.resolve, State.writeOp8, State.setReg8_regs, getReg8_setReg8, if_neg h.symm]; rfl,
      fun r1 h => getReg16_setReg8_ne _ _ (by simpa using h), fun _ _ _ => rfl⟩
  | mem m =>
    exact ⟨readByte_writeByte_same _ _ _ _, fun _ _ => rfl, fun sg off h =>
      readByte_writeByte_ne _ _ (by simpa using h)⟩

/-- A word operand write does what `Writes16` says. -/
theorem writes16_writeOp16 (s : State) (x : RM16) (v : Word) : Writes16 s (s.writeOp16 (s.resolve x) v) x v := by
  cases x with
  | reg r =>
    exact ⟨getReg16_setReg16_same _ _ _, fun r1 h => getReg16_setReg16_ne _ _ (by simpa using h), fun _ _ _ => rfl⟩
  | mem m =>
    refine ⟨readWord_writeWord_same _ _ _ _, fun _ _ => rfl, fun sg off h => ?_⟩
    simp only [wordAt, List.mem_cons, List.not_mem_nil, or_false, not_or] at h
    exact readByte_writeWord_ne _ _ h.1 h.2

/-- A push does what `Pushed` says. -/
theorem pushed_push16 (s : State) (v : Word) : Pushed s (s.push16 v) v := by
  refine ⟨?_, fun r h => ?_, ?_, fun sg off h => ?_⟩
  · rw [State.reg16, State.push16_regs, getReg16_setReg16_same]
  · rw [State.reg16, State.push16_regs, getReg16_setReg16_ne _ _ (by simpa using h)]; rfl
  · simp [State.push16, State.reg16_setReg16]
  · simp only [wordAt, List.mem_cons, List.not_mem_nil, or_false, not_or] at h
    have := readByte_writeWord_ne (s.setReg16 .sp (s.reg16 .sp - 2#16)) (sg := s.sreg .ss)
      (off := s.reg16 .sp - 2#16) v h.1 h.2
    simpa [State.push16, State.reg16_setReg16] using this

end Sys2Proof.Claims
end

