-- ==== Sys2Proof/Laws/Arithmetic.lean ====
section
/-! SUPPORT. The flag helper functions meet the results of `Safety.lean`: addition and subtraction with their six flags (R262,
R263), ZF, SF and PF of a result (R260, R261). -/

namespace Sys2Proof.Claims
open Sys2Proof Sys2Proof.Machine

theorem parity8_iff {w : Nat} (r : BitVec w) :
    parity8 r = true ↔ ((List.range 8).map fun i => (r.getLsbD i).toNat).sum % 2 = 0 := by
  have h : ∀ l : List Nat, l.countP (fun i => r.getLsbD i) = (l.map fun i => (r.getLsbD i).toNat).sum := by
    intro l
    induction l with
    | nil => rfl
    | cons a l ih => simp only [List.countP_cons, List.map_cons, List.sum_cons, ih]; cases r.getLsbD a <;> simp [Nat.add_comm]
  unfold parity8
  rw [h, beq_iff_eq]

/-- An effect that ends in `setSZP` gives the flags of its result. -/
theorem szp_of_setSZP {w : Nat} (r : BitVec w) (e : FlagEffect) (f : Flags) (d : Nat) :
    Szp r ((setSZP r e).apply f d) := by
  refine ⟨?_, rfl, ?_⟩
  · show (r == 0) = true ↔ _
    simp
  · exact parity8_iff r

theorem addN_result8 (a b : Byte) (c : Bool) (f : Flags) (d : Nat) :
    AddResult a b c (addN a b c).1 ((addN a b c).2.apply f d) := by
  refine ⟨by simp [addN], ?_, ?_, ?_, szp_of_setSZP _ _ _ _⟩
  · show decide _ = true ↔ _
    rw [decide_eq_true_iff]
  · show decide _ = true ↔ _
    rw [decide_eq_true_iff]
  · show (a.msb == b.msb && (addN a b c).1.msb != a.msb) = true ↔ _
    have ha := a.isLt; have hb := b.isLt
    have hc : c.toNat < 2 := by cases c <;> decide
    simp only [addN, BitVec.msb_eq_decide, BitVec.toInt_eq_toNat_cond, BitVec.toNat_ofNat, Bool.and_eq_true,
      beq_iff_eq, bne_iff_ne, ne_eq, decide_eq_decide]
    norm_num at *
    split <;> split <;> omega

theorem addN_result16 (a b : Word) (c : Bool) (f : Flags) (d : Nat) :
    AddResult a b c (addN a b c).1 ((addN a b c).2.apply f d) := by
  refine ⟨by simp [addN], ?_, ?_, ?_, szp_of_setSZP _ _ _ _⟩
  · show decide _ = true ↔ _
    rw [decide_eq_true_iff]
  · show decide _ = true ↔ _
    rw [decide_eq_true_iff]
  · show (a.msb == b.msb && (addN a b c).1.msb != a.msb) = true ↔ _
    have ha := a.isLt; have hb := b.isLt
    have hc : c.toNat < 2 := by cases c <;> decide
    simp only [addN, BitVec.msb_eq_decide, BitVec.toInt_eq_toNat_cond, BitVec.toNat_ofNat, Bool.and_eq_true,
      beq_iff_eq, bne_iff_ne, ne_eq, decide_eq_decide]
    norm_num at *
    split <;> split <;> omega

theorem subN_result8 (a b : Byte) (c : Bool) (f : Flags) (d : Nat) :
    SubResult a b c (subN a b c).1 ((subN a b c).2.apply f d) := by
  refine ⟨by simp [subN, BitVec.toNat_ofInt]; omega, ?_, ?_, ?_, szp_of_setSZP _ _ _ _⟩
  · show decide _ = true ↔ _
    rw [decide_eq_true_iff]
  · show decide _ = true ↔ _
    rw [decide_eq_true_iff]
  · show (a.msb != b.msb && (subN a b c).1.msb != a.msb) = true ↔ _
    have ha := a.isLt; have hb := b.isLt
    have hc : c.toNat < 2 := by cases c <;> decide
    simp only [subN, BitVec.msb_eq_decide, BitVec.toInt_eq_toNat_cond, BitVec.toNat_ofInt, Bool.and_eq_true,
      bne_iff_ne, ne_eq, decide_eq_decide]
    norm_num at *
    split <;> split <;> omega

theorem subN_result16 (a b : Word) (c : Bool) (f : Flags) (d : Nat) :
    SubResult a b c (subN a b c).1 ((subN a b c).2.apply f d) := by
  refine ⟨by simp [subN, BitVec.toNat_ofInt]; omega, ?_, ?_, ?_, szp_of_setSZP _ _ _ _⟩
  · show decide _ = true ↔ _
    rw [decide_eq_true_iff]
  · show decide _ = true ↔ _
    rw [decide_eq_true_iff]
  · show (a.msb != b.msb && (subN a b c).1.msb != a.msb) = true ↔ _
    have ha := a.isLt; have hb := b.isLt
    have hc : c.toNat < 2 := by cases c <;> decide
    simp only [subN, BitVec.msb_eq_decide, BitVec.toInt_eq_toNat_cond, BitVec.toNat_ofInt, Bool.and_eq_true,
      bne_iff_ne, ne_eq, decide_eq_decide]
    norm_num at *
    split <;> split <;> omega
end Sys2Proof.Claims
end

