-- ==== Sys2Proof/Laws/Operands.lean ====
section
/-! SUPPORT. What the shared instruction shapes of `Machine/Operands.lean` do: the operand written, the flags, the frame. -/

namespace Sys2Proof.Claims

open Sys2Proof Sys2Proof.Machine

/-- A status-flag effect leaves TF, IF and DF. -/
theorem controlFlags_applyFlags (s : State) (e : FlagEffect) : ControlFlagsSame s (s.applyFlags e) := ⟨rfl, rfl, rfl⟩

theorem onlyData_refl (s : State) : OnlyData s s := ⟨rfl, rfl, rfl, rfl, rfl, rfl, rfl, rfl, rfl, rfl, rfl⟩

/-- The frame of an instruction that writes one byte operand and the status flags. -/
theorem writeThenFlags8 (s : State) (x : RM8) (v : Byte) (e : FlagEffect) :
    OnlyData s ((s.writeOp8 (s.resolve x) v).applyFlags e) ∧
    ControlFlagsSame s ((s.writeOp8 (s.resolve x) v).applyFlags e) ∧
    Writes8 s ((s.writeOp8 (s.resolve x) v).applyFlags e) x v ∧
    ((s.writeOp8 (s.resolve x) v).applyFlags e).flags = e.apply s.flags s.draws := by
  refine ⟨by simp [OnlyData, ControlSame], ?_, (writes8_writeOp8 s x v).congr rfl rfl, by simp⟩
  simp [ControlFlagsSame, FlagEffect.apply]

/-- The frame of an instruction that writes one word operand and the status flags. -/
theorem writeThenFlags16 (s : State) (x : RM16) (v : Word) (e : FlagEffect) :
    OnlyData s ((s.writeOp16 (s.resolve x) v).applyFlags e) ∧
    ControlFlagsSame s ((s.writeOp16 (s.resolve x) v).applyFlags e) ∧
    Writes16 s ((s.writeOp16 (s.resolve x) v).applyFlags e) x v ∧
    ((s.writeOp16 (s.resolve x) v).applyFlags e).flags = e.apply s.flags s.draws := by
  refine ⟨by simp [OnlyData, ControlSame], ?_, (writes16_writeOp16 s x v).congr rfl rfl, by simp⟩
  simp [ControlFlagsSame, FlagEffect.apply]

/-- A two-operand operation that writes, form by form (R266). -/
theorem alu_spec (s : State) (f : AluFn) (g : AluForm) {p8 : RM8 → Byte → Prop} {p16 : RM16 → Word → Prop}
    (h8 : ∀ x b, Writes8 s (s.aluRm8 f x b) x (f (s.readRM8 x) b s.flags.cf).1 →
      (s.aluRm8 f x b).flags = (f (s.readRM8 x) b s.flags.cf).2.apply s.flags s.draws →
      s.alu f g = s.aluRm8 f x b → p8 x b)
    (h16 : ∀ x b, Writes16 s (s.aluRm16 f x b) x (f (s.readRM16 x) b s.flags.cf).1 →
      (s.aluRm16 f x b).flags = (f (s.readRM16 x) b s.flags.cf).2.apply s.flags s.draws →
      s.alu f g = s.aluRm16 f x b → p16 x b) :
    OnlyData s (s.alu f g) ∧ ControlFlagsSame s (s.alu f g) ∧ aluHolds s p8 p16 g := by
  cases g with
  | rm8Reg8 x r | rm8Imm8 x i | rm8Imm8Alias x i =>
    have := writeThenFlags8 s x (f (s.readRM8 x) (by first | exact s.reg8 r | exact i) s.flags.cf).1
      (f (s.readRM8 x) (by first | exact s.reg8 r | exact i) s.flags.cf).2
    exact ⟨this.1, this.2.1, h8 _ _ this.2.2.1 this.2.2.2 rfl⟩
  | reg8Rm8 r x =>
    have := writeThenFlags8 s (.reg r) (f (s.reg8 r) (s.readRM8 x) s.flags.cf).1 (f (s.reg8 r) (s.readRM8 x) s.flags.cf).2
    exact ⟨this.1, this.2.1, h8 _ _ this.2.2.1 this.2.2.2 rfl⟩
  | alImm8 i =>
    have := writeThenFlags8 s (.reg .al) (f (s.reg8 .al) i s.flags.cf).1 (f (s.reg8 .al) i s.flags.cf).2
    exact ⟨this.1, this.2.1, h8 _ _ this.2.2.1 this.2.2.2 rfl⟩
  | rm16Reg16 x r | rm16Imm16 x i =>
    have := writeThenFlags16 s x (f (s.readRM16 x) (by first | exact s.reg16 r | exact i) s.flags.cf).1
      (f (s.readRM16 x) (by first | exact s.reg16 r | exact i) s.flags.cf).2
    exact ⟨this.1, this.2.1, h16 _ _ this.2.2.1 this.2.2.2 rfl⟩
  | rm16Imm8 x i =>
    have := writeThenFlags16 s x (f (s.readRM16 x) (sext16 i) s.flags.cf).1 (f (s.readRM16 x) (sext16 i) s.flags.cf).2
    exact ⟨this.1, this.2.1, h16 _ _ this.2.2.1 this.2.2.2 rfl⟩
  | reg16Rm16 r x =>
    have := writeThenFlags16 s (.reg r) (f (s.reg16 r) (s.readRM16 x) s.flags.cf).1
      (f (s.reg16 r) (s.readRM16 x) s.flags.cf).2
    exact ⟨this.1, this.2.1, h16 _ _ this.2.2.1 this.2.2.2 rfl⟩
  | axImm16 i =>
    have := writeThenFlags16 s (.reg .ax) (f (s.reg16 .ax) i s.flags.cf).1 (f (s.reg16 .ax) i s.flags.cf).2
    exact ⟨this.1, this.2.1, h16 _ _ this.2.2.1 this.2.2.2 rfl⟩

end Sys2Proof.Claims
end

