-- ==== Sys2Proof/Laws/Shifts.lean ====
section
/-! SUPPORT. Shifts and rotates: what `State.shift` does form by form (R330, R331), and the closed forms of the single-bit
steps of the three shifts (R332 to R334). -/

namespace Sys2Proof.Claims

open Sys2Proof Sys2Proof.Machine

/-- The low five bits of a byte are it modulo 32 (R331). -/
theorem and31 (i : Byte) : (i &&& 0x1F#8).toNat = i.toNat % 32 := by
  rw [BitVec.toNat_and]; exact Nat.and_two_pow_sub_one_eq_mod _ 5

/-- The count of CL is the one of `countOf` (R331). -/
theorem clCount_eq (s : State) : s.clCount = countOf s.cfg.isaLevel (s.reg8 .cl) := by
  unfold State.clCount countOf
  cases s.cfg.isaLevel
  · rfl
  · exact (and31 _).symm

/-- Every form of a shift or rotate: by a count of 0 nothing happens; else the operand holds the result and the flags are those
of the operation (R330). `P` is what a statement says of the flags whatever the form. -/
theorem shift_spec (s : State) (f : ShiftFn) (g : ShiftForm) {P : State → Prop} {p8 : RM8 → Nat → Prop} {p16 : RM16 → Nat → Prop}
   (hP0 : P s) (hP : ∀ t : State, (∃ (w : Nat) (v : BitVec w) (c : Nat), t.flags = (f v s.flags.cf c).2.apply s.flags s.draws) → P t)
    (h8 : ∀ x c, (c = 0 → s.shift f g = s) → (c ≠ 0 → Writes8 s (s.shift f g) x (f (s.readRM8 x) s.flags.cf c).1 ∧
      (s.shift f g).flags = (f (s.readRM8 x) s.flags.cf c).2.apply s.flags s.draws) → p8 x c)
    (h16 : ∀ x c, (c = 0 → s.shift f g = s) → (c ≠ 0 → Writes16 s (s.shift f g) x (f (s.readRM16 x) s.flags.cf c).1 ∧
      (s.shift f g).flags = (f (s.readRM16 x) s.flags.cf c).2.apply s.flags s.draws) → p16 x c) :
    OnlyData s (s.shift f g) ∧ ControlFlagsSame s (s.shift f g) ∧ P (s.shift f g) ∧ shiftHolds s p8 p16 g := by
  have k8 : ∀ x c, s.shift f g = s.shiftRm8 f x c → OnlyData s (s.shift f g) ∧ ControlFlagsSame s (s.shift f g) ∧ P (s.shift f g) ∧ p8 x c := by
    intro x c e
    by_cases hc : c = 0
    · have e : s.shift f g = s := by rw [e]; simp [State.shiftRm8, hc]
      exact ⟨by rw [e]; exact onlyData_refl s, by rw [e]; exact ⟨rfl, rfl, rfl⟩, by rw [e]; exact hP0, h8 x c (fun _ => e) (fun h => absurd hc h)⟩
    · have e : s.shift f g = (s.writeOp8 (s.resolve x) (f (s.readRM8 x) s.flags.cf c).1).applyFlags (f (s.readRM8 x) s.flags.cf c).2 := by
        rw [e]; simp [State.shiftRm8, hc]; rfl
      obtain ⟨a1, a2, a3, a4⟩ := writeThenFlags8 s x (f (s.readRM8 x) s.flags.cf c).1 (f (s.readRM8 x) s.flags.cf c).2
      rw [← e] at a1 a2 a3 a4
      exact ⟨a1, a2, hP _ ⟨_, _, _, a4⟩, h8 x c (fun h => absurd h hc) (fun _ => ⟨a3, a4⟩)⟩
  have k16 : ∀ x c, s.shift f g = s.shiftRm16 f x c → OnlyData s (s.shift f g) ∧ ControlFlagsSame s (s.shift f g) ∧ P (s.shift f g) ∧ p16 x c := by
    intro x c e
    by_cases hc : c = 0
    · have e : s.shift f g = s := by rw [e]; simp [State.shiftRm16, hc]
      exact ⟨by rw [e]; exact onlyData_refl s, by rw [e]; exact ⟨rfl, rfl, rfl⟩, by rw [e]; exact hP0, h16 x c (fun _ => e) (fun h => absurd hc h)⟩
    · have e : s.shift f g = (s.writeOp16 (s.resolve x) (f (s.readRM16 x) s.flags.cf c).1).applyFlags (f (s.readRM16 x) s.flags.cf c).2 := by
        rw [e]; simp [State.shiftRm16, hc]; rfl
      obtain ⟨a1, a2, a3, a4⟩ := writeThenFlags16 s x (f (s.readRM16 x) s.flags.cf c).1 (f (s.readRM16 x) s.flags.cf c).2
      rw [← e] at a1 a2 a3 a4
      exact ⟨a1, a2, hP _ ⟨_, _, _, a4⟩, h16 x c (fun h => absurd h hc) (fun _ => ⟨a3, a4⟩)⟩
  cases g with
  | rm8One x => exact k8 x 1 rfl
  | rm16One x => exact k16 x 1 rfl
  | rm8Cl x => exact k8 x _ (by rw [← clCount_eq]; rfl)
  | rm16Cl x => exact k16 x _ (by rw [← clCount_eq]; rfl)
  | rm8Imm x i => exact k8 x _ (by rw [and31]; rfl)
  | rm16Imm x i => exact k16 x _ (by rw [and31]; rfl)

/-- `count` steps of SHL (R332): the value shifted left, CF the bit shifted out last. -/
theorem shlLoop {w : Nat} (hw : 0 < w) (n : Nat) : ∀ (v : BitVec w) (cf : Bool),
    (shiftLoop shlOne n v cf).1 = v <<< n ∧ (n ≠ 0 → (shiftLoop shlOne n v cf).2 = (decide (n ≤ w) && v.getLsbD (w - n))) := by
  induction n with
  | zero => intro v cf; simp [shiftLoop]
  | succ n ih =>
    intro v cf
    have e : (shlOne v cf).1 = v <<< 1 := by
      apply BitVec.eq_of_toNat_eq; simp [shlOne, Nat.shiftLeft_eq]
    obtain ⟨i1, i2⟩ := ih (shlOne v cf).1 (shlOne v cf).2
    refine ⟨by rw [shiftLoop, i1, e, ← BitVec.shiftLeft_add, Nat.add_comm], fun _ => ?_⟩
    rw [shiftLoop]
    by_cases h : n = 0
    · subst h; simp [shiftLoop, shlOne, BitVec.msb_eq_getLsbD_last]; try omega
    · rw [i2 h, e]
      simp only [BitVec.getLsbD_shiftLeft]
      by_cases h1 : n + 1 ≤ w
      · simp [h1, show n ≤ w by omega, show w - n < w by omega, show ¬ (w - n < 1) by omega, Nat.sub_sub]
      · simp [h1]; intro h3 h4 h5; omega

/-- `count` steps of SHR (R333). -/
theorem shrLoop {w : Nat} (n : Nat) : ∀ (v : BitVec w) (cf : Bool),
    (shiftLoop shrOne n v cf).1 = v >>> n ∧ (n ≠ 0 → (shiftLoop shrOne n v cf).2 = v.getLsbD (n - 1)) := by
  induction n with
  | zero => intro v cf; simp [shiftLoop]
  | succ n ih =>
    intro v cf
    have e : (shrOne v cf).1 = v >>> 1 := by
      apply BitVec.eq_of_toNat_eq; simp [shrOne, Nat.shiftRight_eq_div_pow]
      exact Nat.mod_eq_of_lt (by have := v.isLt; omega)
    obtain ⟨i1, i2⟩ := ih (shrOne v cf).1 (shrOne v cf).2
    refine ⟨by rw [shiftLoop, i1, e, ← BitVec.shiftRight_add, Nat.add_comm], fun _ => ?_⟩
    rw [shiftLoop]
    by_cases h : n = 0
    · subst h; simp [shiftLoop, shrOne]
    · rw [i2 h, e, BitVec.getLsbD_ushiftRight]
      congr 1; omega

/-- `count` steps of SAR (R334). -/
theorem sarLoop {w : Nat} (hw : 0 < w) (n : Nat) : ∀ (v : BitVec w) (cf : Bool),
    (shiftLoop sarOne n v cf).1 = v.sshiftRight n ∧ (n ≠ 0 → (shiftLoop sarOne n v cf).2 = v.getLsbD (min (n - 1) (w - 1))) := by
  induction n with
  | zero => intro v cf; simp [shiftLoop]
  | succ n ih =>
    intro v cf
    have e : (sarOne v cf).1 = v.sshiftRight 1 := by
      apply BitVec.eq_of_toNat_eq
      have := v.isLt
      obtain ⟨k, rfl⟩ : ∃ k, w = k + 1 := ⟨w - 1, by omega⟩
      rw [← BitVec.toNat_inj.mpr rfl]
      apply BitVec.toNat_inj.mpr
      apply BitVec.eq_of_toInt_eq
      rw [BitVec.toInt_sshiftRight, Int.shiftRight_eq_div_pow]
      simp only [sarOne, BitVec.toInt_eq_toNat_cond, BitVec.toNat_ofNat, BitVec.msb_eq_decide, Nat.add_sub_cancel, pow_succ] at *
      have hk : ((2 ^ k : Nat) : Int) = (2 : Int) ^ k := by push_cast; rfl
      by_cases h : 2 ^ k ≤ v.toNat
      · simp [h]
        rw [Nat.mod_eq_of_lt (by omega), if_neg (by omega), if_neg (by omega), Int.emod_eq_of_lt (by omega) (by omega)]
        omega
      · simp [h]
        rw [Nat.mod_eq_of_lt (by omega), if_pos (by omega), if_pos (by omega), Int.emod_eq_of_lt (by omega) (by omega)]
    obtain ⟨i1, i2⟩ := ih (sarOne v cf).1 (sarOne v cf).2
    refine ⟨by rw [shiftLoop, i1, e, ← BitVec.sshiftRight_add, Nat.add_comm], fun _ => ?_⟩
    rw [shiftLoop]
    by_cases h : n = 0
    · subst h; simp [shiftLoop, sarOne]
    · rw [i2 h, e, BitVec.getLsbD_sshiftRight]
      simp only [BitVec.msb_eq_getLsbD_last]
      rw [show decide (w ≤ min (n - 1) (w - 1)) = false by simp; omega, Bool.not_false, Bool.true_and]
      split <;> congr 1 <;> omega

end Sys2Proof.Claims
end

