-- ==== Sys2Proof/Laws/Kept.lean ====
section
/-! SUPPORT. What no shared operation changes (`Kept`): the tables, the parameters, what the driver recorded, Prefix State and
the driver state; no record of the diagnostic log is lost, no free value is used twice, and memory stays in canonical form.
One lemma for each operation, so that a statement about all instructions need not unfold them. -/

namespace Sys2Proof.Machine

open Sys2Proof

/-- What an operation leaves: see the file's first words. -/
structure Kept (s t : State) : Prop where
  intTable  : t.intTable = s.intTable
  portTable : t.portTable = s.portTable
  cfg       : t.cfg = s.cfg
  cs0       : t.cs0 = s.cs0
  ip0       : t.ip0 = s.ip0
  pfx       : t.pfx = s.pfx
  driver    : t.driver = s.driver
  diag      : s.diag <+: t.diag
  faults    : t.diag.filter DiagRecord.isFault = s.diag.filter DiagRecord.isFault
  draws     : s.draws ≤ t.draws
  memWf     : Memory.wf s.mem → Memory.wf t.mem

theorem Kept.refl (s : State) : Kept s s :=
  ⟨rfl, rfl, rfl, rfl, rfl, rfl, rfl, List.prefix_refl _, rfl, Nat.le_refl _, id⟩

theorem Kept.trans {s t u : State} (h : Kept s t) (k : Kept t u) : Kept s u :=
  ⟨k.intTable.trans h.intTable, k.portTable.trans h.portTable, k.cfg.trans h.cfg, k.cs0.trans h.cs0, k.ip0.trans h.ip0,
    k.pfx.trans h.pfx, k.driver.trans h.driver, h.diag.trans k.diag, k.faults.trans h.faults, h.draws.trans k.draws,
    fun w => k.memWf (h.memWf w)⟩

theorem kept_setReg16 (s : State) (r : Reg16) (v : Word) : Kept s (s.setReg16 r v) :=
  ⟨rfl, rfl, rfl, rfl, rfl, rfl, rfl, List.prefix_refl _, rfl, Nat.le_refl _, id⟩

theorem kept_setReg8 (s : State) (r : Reg8) (v : Byte) : Kept s (s.setReg8 r v) :=
  ⟨rfl, rfl, rfl, rfl, rfl, rfl, rfl, List.prefix_refl _, rfl, Nat.le_refl _, id⟩

theorem kept_setSReg (s : State) (r : SReg) (v : Word) : Kept s (s.setSReg r v) :=
  ⟨rfl, rfl, rfl, rfl, rfl, rfl, rfl, List.prefix_refl _, rfl, Nat.le_refl _, id⟩

theorem kept_setIp (s : State) (v : Word) : Kept s (s.setIp v) :=
  ⟨rfl, rfl, rfl, rfl, rfl, rfl, rfl, List.prefix_refl _, rfl, Nat.le_refl _, id⟩

theorem kept_setFlags (s : State) (f : Flags) : Kept s { s with flags := f } :=
  ⟨rfl, rfl, rfl, rfl, rfl, rfl, rfl, List.prefix_refl _, rfl, Nat.le_refl _, id⟩

theorem kept_setPending (s : State) (p : Option Byte) : Kept s { s with pending := p } :=
  ⟨rfl, rfl, rfl, rfl, rfl, rfl, rfl, List.prefix_refl _, rfl, Nat.le_refl _, id⟩

theorem kept_applyFlags (s : State) (e : FlagEffect) : Kept s (s.applyFlags e) :=
  ⟨rfl, rfl, rfl, rfl, rfl, rfl, rfl, List.prefix_refl _, rfl, Nat.le_add_right _ _, id⟩

theorem kept_writeByte (s : State) (sg off : Word) (v : Byte) : Kept s (s.writeByte sg off v) :=
  ⟨rfl, rfl, rfl, rfl, rfl, rfl, rfl, List.prefix_refl _, rfl, Nat.le_refl _, writeByte_wf _ _ _⟩

theorem kept_writeWord (s : State) (sg off v : Word) : Kept s (s.writeWord sg off v) :=
  (kept_writeByte _ _ _ _).trans (kept_writeByte _ _ _ _)

theorem kept_writeOp8 (s : State) (x : Loc Reg8) (v : Byte) : Kept s (s.writeOp8 x v) := by
  cases x with
  | reg r => exact kept_setReg8 s r v
  | mem sg ea => exact kept_writeByte s sg ea v

theorem kept_writeOp16 (s : State) (x : Loc Reg16) (v : Word) : Kept s (s.writeOp16 x v) := by
  cases x with
  | reg r => exact kept_setReg16 s r v
  | mem sg ea => exact kept_writeWord s sg ea v

theorem kept_push16 (s : State) (v : Word) : Kept s (s.push16 v) :=
  (kept_setReg16 s .sp _).trans (kept_writeWord _ _ _ _)

theorem kept_pop16 (s : State) : Kept s s.pop16.2 := kept_setReg16 s .sp _

/-- The `Unmapped` records are appended, and none of them is a fault (R38, R524). -/
theorem kept_noteUnmapped (s : State) (l : List UnmappedAccess) : Kept s (s.noteUnmapped l) := by
  unfold State.noteUnmapped
  split
  · refine ⟨rfl, rfl, rfl, rfl, rfl, rfl, rfl, List.prefix_append _ _, ?_, Nat.le_refl _, id⟩
    have : (l.map (unmappedRecord s)).filter DiagRecord.isFault = [] := by
      rw [List.filter_eq_nil_iff]
      intro r hr
      obtain ⟨a, -, rfl⟩ := List.mem_map.mp hr
      cases a <;> simp [unmappedRecord, DiagRecord.isFault]
    simp [List.filter_append, this]
  · exact Kept.refl s

theorem kept_applyIntEffect (s : State) (e : IntEffect) : Kept s (s.applyIntEffect e) := by
  have h := kept_noteUnmapped s e.unmapped
  exact ⟨h.intTable, h.portTable, h.cfg, h.cs0, h.ip0, h.pfx, h.driver, h.diag, h.faults, Nat.le_succ _,
    fun w => applyWrites_wf _ w⟩

theorem kept_applyPortEffect (s : State) (e : PortEffect) : Kept s (s.applyPortEffect e) :=
  ⟨rfl, rfl, rfl, rfl, rfl, rfl, rfl, List.prefix_refl _, rfl, Nat.le_succ _, fun w => applyWrites_wf _ w⟩

theorem kept_guestVector (s : State) (n : Byte) : Kept s (s.guestVector n) :=
  (kept_push16 s _).trans <| (kept_setFlags _ _).trans <| (kept_push16 _ _).trans <| (kept_push16 _ _).trans <|
    (kept_setIp _ _).trans (kept_setSReg _ _ _)

/-- Taking an interrupt (R525). -/
theorem kept_raiseInterrupt (s : State) (n : Byte) : Kept s (s.raiseInterrupt n) := by
  unfold State.raiseInterrupt
  split
  · exact kept_noteUnmapped _ _
  · exact kept_guestVector _ _
  · exact kept_applyIntEffect _ _

/-- The divide error (R529). -/
theorem kept_divideError (s : State) : Kept s s.divideError :=
  (kept_applyFlags s _).trans (kept_raiseInterrupt _ _)

theorem kept_portIn8 (s : State) (port : Word) : Kept s (s.portIn8 port).2 := by
  unfold State.portIn8
  split
  · exact kept_noteUnmapped _ _
  · exact kept_applyPortEffect _ _

theorem kept_portIn16 (s : State) (port : Word) : Kept s (s.portIn16 port).2 := by
  unfold State.portIn16
  split
  · exact kept_noteUnmapped _ _
  · exact kept_applyPortEffect _ _

theorem kept_portOut8 (s : State) (port : Word) (v : Byte) : Kept s (s.portOut8 port v) := by
  unfold State.portOut8
  split
  · exact kept_noteUnmapped _ _
  · exact kept_applyPortEffect _ _

theorem kept_portOut16 (s : State) (port v : Word) : Kept s (s.portOut16 port v) := by
  unfold State.portOut16
  split
  · exact kept_noteUnmapped _ _
  · exact kept_applyPortEffect _ _

/-- The repetition keeps what its body keeps (R361). -/
theorem kept_repLoop (k : RepKind) (c : Bool) {body : State → State} (hb : ∀ s, Kept s (body s)) (n : Nat) :
    ∀ s, Kept s (repLoop k c body n s) := by
  induction n with
  | zero => exact Kept.refl
  | succ n ih =>
    intro s
    have h1 : Kept s (body s).decCx := (hb s).trans (kept_setReg16 _ _ _)
    simp only [repLoop]
    split
    · exact Kept.refl s
    · split
      · exact h1
      · exact h1.trans (ih _)

/-- A string instruction keeps what its body keeps (R361). -/
theorem kept_stringOp (s : State) (c : Bool) {body : State → State} (hb : ∀ s, Kept s (body s)) :
    Kept s (s.stringOp c body) := by
  unfold State.stringOp
  split
  · exact hb s
  · exact kept_repLoop _ _ hb _ _

/-- Two-operand operations (R266). -/
theorem kept_alu (s : State) (f : AluFn) (g : AluForm) : Kept s (s.alu f g) := by
  cases g <;> first
    | exact (kept_writeOp8 _ _ _).trans (kept_applyFlags _ _)
    | exact (kept_writeOp16 _ _ _).trans (kept_applyFlags _ _)

theorem kept_aluDiscard (s : State) (f : AluFn) (g : AluForm) : Kept s (s.aluDiscard f g) := by
  cases g <;> exact kept_applyFlags _ _

theorem kept_unary (s : State) (f : UnFn) (g : UnaryForm) : Kept s (s.unary f g) := by
  cases g <;> first
    | exact (kept_writeOp8 _ _ _).trans (kept_applyFlags _ _)
    | exact (kept_writeOp16 _ _ _).trans (kept_applyFlags _ _)

theorem kept_incDec (s : State) (f : UnFn) (g : IncForm) : Kept s (s.incDec f g) := by
  cases g <;> first
    | exact (kept_writeOp8 _ _ _).trans (kept_applyFlags _ _)
    | exact (kept_writeOp16 _ _ _).trans (kept_applyFlags _ _)

theorem kept_shiftRm8 (s : State) (f : ShiftFn) (x : RM8) (c : Nat) : Kept s (s.shiftRm8 f x c) := by
  unfold State.shiftRm8
  split
  · exact Kept.refl s
  · exact (kept_writeOp8 _ _ _).trans (kept_applyFlags _ _)

theorem kept_shiftRm16 (s : State) (f : ShiftFn) (x : RM16) (c : Nat) : Kept s (s.shiftRm16 f x c) := by
  unfold State.shiftRm16
  split
  · exact Kept.refl s
  · exact (kept_writeOp16 _ _ _).trans (kept_applyFlags _ _)

/-- Shifts and rotates (R330). -/
theorem kept_shift (s : State) (f : ShiftFn) (g : ShiftForm) : Kept s (s.shift f g) := by
  cases g with
  | rm8One x => exact kept_shiftRm8 s f x 1
  | rm16One x => exact kept_shiftRm16 s f x 1
  | rm8Cl x => exact kept_shiftRm8 s f x s.clCount
  | rm16Cl x => exact kept_shiftRm16 s f x s.clCount
  | rm8Imm x i => exact kept_shiftRm8 s f x _
  | rm16Imm x i => exact kept_shiftRm16 s f x _

end Sys2Proof.Machine
end

