-- ==== Sys2Proof/Laws/Driver.lean ====
section
/-! SUPPORT. The driver: one round of `runPass`, which byte an instruction's prefix test looks at, the repetition unrolled
once. -/

namespace Sys2Proof.Machine

open Sys2Proof

/-- An instruction that is no prefix byte is executed (R145, R146). -/
theorem runPass_dispatch {s : State} {i : Instr} {n : Nat} (fuel : Nat) (hd : s.decodeNext = (i, n))
    (hp : i.isPrefix = false) : runPass (fuel + 1) s = exec i (s.toDispatch n) := by
  simp only [runPass, hd, hp]; rfl

/-- A prefix byte is executed, and the loop goes on (R142). -/
theorem runPass_prefix {s t : State} {i : Instr} {n : Nat} (fuel : Nat) (hd : s.decodeNext = (i, n))
    (hp : i.isPrefix = true) (he : exec i (s.advance n) = .next t) : runPass (fuel + 1) s = runPass fuel t := by
  simp only [runPass, hd, hp, he, if_true]

/-- The body is not run when CX is 0 (R361 a). -/
theorem repLoop_cx_zero (k : RepKind) (c : Bool) (body : State → State) (n : Nat) {s : State}
    (h : s.reg16 .cx = 0#16) : repLoop k c body n s = s := by
  cases n with
  | zero => rfl
  | succ n => simp only [repLoop, if_pos h]

/-- One element, and either the end or the rest (R361). -/
theorem repLoop_cx_ne (k : RepKind) (c : Bool) (body : State → State) (n : Nat) {s : State}
    (h : s.reg16 .cx ≠ 0#16) :
    repLoop k c body (n + 1) s =
      if c && repStops k (body s).decCx.flags.zf then (body s).decCx else repLoop k c body n (body s).decCx := by
  simp only [repLoop, if_neg h]

end Sys2Proof.Machine
end

