-- ==== Sys2Proof/Laws/Pending.lean ====
section
/-! SUPPORT. No shared operation reads or writes the pending slot (R34): on a state with another slot it gives the same state but
for that slot. With handlers of the environment this is theirs to decide (R526, R77), so the operations that may call one are
covered where none is installed. One lemma for each operation, so that a statement about all instructions need not unfold them. -/

namespace Sys2Proof.Machine

open Sys2Proof

/-- An operation neither reads nor writes the pending slot, in the states of `P`. -/
abbrev SlotBlind (P : State → Prop) (f : State → State) : Prop :=
  ∀ (s : State) (p : Option Byte), P s → f { s with pending := p } = { f s with pending := p }

/-- What is not read is not written. -/
theorem SlotBlind.pending {P : State → Prop} {f : State → State} (h : SlotBlind P f) {s : State} (hs : P s) :
    (f s).pending = s.pending := by
  have h1 : f s = { f s with pending := s.pending } := h s s.pending hs
  rw [h1]

/-- A datum found in a table stands in it. -/
theorem lookup_mem {α : Type} {t : List (Nat × α)} {a : Nat} {v : α} (h : lookup t a = some v) : (a, v) ∈ t := by
  induction t with
  | nil => cases h
  | cons c r ih =>
    obtain ⟨k, u⟩ := c
    simp only [lookup] at h
    split at h
    · next e => cases h; subst e; exact List.mem_cons_self
    · exact List.mem_cons_of_mem _ (ih h)

/-- With no handler of the environment, a slot that has a handler has the standard one (R35). -/
theorem State.noHostHandlers.slot {s : State} (h : s.noHostHandlers) {n : Nat} {x : IntHandler}
    (hx : lookup s.intTable n = some x) : x = .guestVector := h.1 _ (lookup_mem hx)

/-- With no handler of the environment, no port has a read handler (R36). -/
theorem State.noHostHandlers.readHandler {s : State} (h : s.noHostHandlers) (port : Word) : s.readHandler port = none := by
  unfold State.readHandler
  cases e : lookup s.portTable port.toNat with
  | none => rfl
  | some x => rw [Option.bind_some, show x = ⟨none, none⟩ from h.2 _ (lookup_mem e)]

/-- With no handler of the environment, no port has a write handler (R36). -/
theorem State.noHostHandlers.writeHandler {s : State} (h : s.noHostHandlers) (port : Word) : s.writeHandler port = none := by
  unfold State.writeHandler
  cases e : lookup s.portTable port.toNat with
  | none => rfl
  | some x => rw [Option.bind_some, show x = ⟨none, none⟩ from h.2 _ (lookup_mem e)]

/-- What keeps the tables installs no handler. -/
theorem State.noHostHandlers.of_kept {s t : State} (h : s.noHostHandlers) (k : Kept s t) : t.noHostHandlers := by
  unfold State.noHostHandlers
  rw [k.intTable, k.portTable]
  exact h

theorem slotBlind_writeOp8 (x : Loc Reg8) (v : Byte) : SlotBlind (fun _ => True) (·.writeOp8 x v) := by
  intro s p _; cases x <;> rfl

theorem slotBlind_writeOp16 (x : Loc Reg16) (v : Word) : SlotBlind (fun _ => True) (·.writeOp16 x v) := by
  intro s p _; cases x <;> rfl

theorem slotBlind_noteUnmapped (l : List UnmappedAccess) : SlotBlind (fun _ => True) (·.noteUnmapped l) := by
  intro s p _
  simp only [State.noteUnmapped]
  split <;> rfl

/-- Taking an interrupt (R525). -/
theorem slotBlind_raiseInterrupt (n : Byte) : SlotBlind State.noHostHandlers (·.raiseInterrupt n) := by
  intro s p h
  cases e : lookup s.intTable n.toNat with
  | none => simpa only [State.raiseInterrupt, e] using slotBlind_noteUnmapped _ s p trivial
  | some x => cases h.slot e; simp only [State.raiseInterrupt, e]; rfl

/-- The divide error (R529). -/
theorem slotBlind_divideError : SlotBlind State.noHostHandlers State.divideError := by
  intro s p h
  exact slotBlind_raiseInterrupt 0#8 (s.applyFlags .allUndef) p (h.of_kept (kept_applyFlags _ _))

/-- A byte from a port: its value does not depend on the slot either (R75). -/
theorem portIn8_blind {s : State} (h : s.noHostHandlers) (port : Word) (p : Option Byte) :
    State.portIn8 { s with pending := p } port = ((s.portIn8 port).1, { (s.portIn8 port).2 with pending := p }) := by
  have e : State.readHandler { s with pending := p } port = none := h.readHandler port
  simpa only [State.portIn8, h.readHandler port, e] using
    congrArg (Prod.mk s.cfg.portIdleByte) (slotBlind_noteUnmapped [.port port] s p trivial)

/-- A word from a port (R75). -/
theorem portIn16_blind {s : State} (h : s.noHostHandlers) (port : Word) (p : Option Byte) :
    State.portIn16 { s with pending := p } port = ((s.portIn16 port).1, { (s.portIn16 port).2 with pending := p }) := by
  have e : State.readHandler { s with pending := p } port = none := h.readHandler port
  simpa only [State.portIn16, h.readHandler port, e] using
    congrArg (Prod.mk s.cfg.portIdleWord) (slotBlind_noteUnmapped [.port port] s p trivial)

theorem slotBlind_portOut8 (port : Word) (v : Byte) : SlotBlind State.noHostHandlers (·.portOut8 port v) := by
  intro s p h
  have e : State.writeHandler { s with pending := p } port = none := h.writeHandler port
  simpa only [State.portOut8, h.writeHandler port, e] using slotBlind_noteUnmapped _ s p trivial

theorem slotBlind_portOut16 (port v : Word) : SlotBlind State.noHostHandlers (·.portOut16 port v) := by
  intro s p h
  have e : State.writeHandler { s with pending := p } port = none := h.writeHandler port
  simpa only [State.portOut16, h.writeHandler port, e] using slotBlind_noteUnmapped _ s p trivial

/-- The end of a byte divide (R280, R281). -/
theorem slotBlind_finishDiv8 (q : Option (Byte × Byte)) : SlotBlind State.noHostHandlers (·.finishDiv8 q) := by
  intro s p h
  cases q with
  | none => exact slotBlind_divideError s p h
  | some => rfl

/-- The end of a word divide (R280, R281). -/
theorem slotBlind_finishDiv16 (q : Option (Word × Word)) : SlotBlind State.noHostHandlers (·.finishDiv16 q) := by
  intro s p h
  cases q with
  | none => exact slotBlind_divideError s p h
  | some => rfl

/-- IN of a byte (R214). -/
theorem slotBlind_inByte (port : Word) : SlotBlind State.noHostHandlers (·.inByte port) := by
  intro s p h
  show (State.portIn8 { s with pending := p } port).2.setReg8 .al (State.portIn8 { s with pending := p } port).1 = _
  rw [portIn8_blind h]; rfl

/-- IN of a word (R214). -/
theorem slotBlind_inWord (port : Word) : SlotBlind State.noHostHandlers (·.inWord port) := by
  intro s p h
  show (State.portIn16 { s with pending := p } port).2.setReg16 .ax (State.portIn16 { s with pending := p } port).1 = _
  rw [portIn16_blind h]; rfl

/-- A jump on a condition (R404). -/
theorem slotBlind_jumpIf (c : Bool) (d : Byte) : SlotBlind (fun _ => True) (·.jumpIf c d) := by
  intro s p _; cases c <;> rfl

/-- One element of INSB (R488). -/
theorem slotBlind_insbBody : SlotBlind State.noHostHandlers insbBody := by
  intro s p h
  have e := portIn8_blind h (s.reg16 .dx) p
  show ((State.portIn8 { s with pending := p } (s.reg16 .dx)).2.storeByte
    (State.portIn8 { s with pending := p } (s.reg16 .dx)).1).stepDi 1#16 = _
  rw [e]; rfl

/-- One element of INSW (R488). -/
theorem slotBlind_inswBody : SlotBlind State.noHostHandlers inswBody := by
  intro s p h
  have e := portIn16_blind h (s.reg16 .dx) p
  show ((State.portIn16 { s with pending := p } (s.reg16 .dx)).2.storeWord
    (State.portIn16 { s with pending := p } (s.reg16 .dx)).1).stepDi 2#16 = _
  rw [e]; rfl

/-- One element of OUTSB (R489). -/
theorem slotBlind_outsbBody : SlotBlind State.noHostHandlers outsbBody := fun s p h =>
  congrArg (State.stepSi · 1#16) (slotBlind_portOut8 (s.reg16 .dx) s.srcByte s p h)

/-- One element of OUTSW (R489). -/
theorem slotBlind_outswBody : SlotBlind State.noHostHandlers outswBody := fun s p h =>
  congrArg (State.stepSi · 2#16) (slotBlind_portOut16 (s.reg16 .dx) s.srcWord s p h)

/-- The repetition is blind to the slot where its body is (R361). -/
theorem slotBlind_repLoop {P : State → Prop} (k : RepKind) (c : Bool) {body : State → State} (hb : SlotBlind P body)
    (hp : ∀ s, P s → P (body s).decCx) (n : Nat) : SlotBlind P (repLoop k c body n) := by
  induction n with
  | zero => exact fun _ _ _ => rfl
  | succ n ih =>
    intro s p hs
    have hcx : State.reg16 { s with pending := p } .cx = s.reg16 .cx := rfl
    have hd : (body { s with pending := p }).decCx = { (body s).decCx with pending := p } := by rw [hb s p hs]; rfl
    simp only [repLoop, hcx, hd]
    split
    · rfl
    · split
      · rfl
      · exact ih _ p (hp s hs)

/-- A string instruction is blind to the slot where its body is (R361). -/
theorem slotBlind_stringOp {P : State → Prop} (c : Bool) {body : State → State} (hb : SlotBlind P body)
    (hp : ∀ s, P s → P (body s).decCx) : SlotBlind P (·.stringOp c body) := by
  intro s p hs
  cases e : s.pfx.rep with
  | none => simpa only [State.stringOp, e] using hb s p hs
  | some k =>
    have hcx : State.reg16 { s with pending := p } .cx = s.reg16 .cx := rfl
    simpa only [State.stringOp, e, hcx] using slotBlind_repLoop k c hb hp _ s p hs

/-- Two-operand operations (R266). -/
theorem slotBlind_alu (f : AluFn) (g : AluForm) : SlotBlind (fun _ => True) (·.alu f g) := by
  intro s p _
  cases g <;> first
    | rfl
    | (rename_i x _; cases x <;> rfl)

theorem slotBlind_aluDiscard (f : AluFn) (g : AluForm) : SlotBlind (fun _ => True) (·.aluDiscard f g) := by
  intro s p _; cases g <;> rfl

/-- One-operand operations (R264, R277). -/
theorem slotBlind_unary (f : UnFn) (g : UnaryForm) : SlotBlind (fun _ => True) (·.unary f g) := by
  intro s p _; cases g <;> rename_i x <;> cases x <;> rfl

theorem slotBlind_incDec (f : UnFn) (g : IncForm) : SlotBlind (fun _ => True) (·.incDec f g) := by
  intro s p _; cases g <;> rename_i x <;> cases x <;> rfl

theorem slotBlind_shiftRm8 (f : ShiftFn) (x : RM8) (c : Nat) : SlotBlind (fun _ => True) (·.shiftRm8 f x c) := by
  intro s p _
  simp only [State.shiftRm8]
  split
  · rfl
  · cases x <;> rfl

theorem slotBlind_shiftRm16 (f : ShiftFn) (x : RM16) (c : Nat) : SlotBlind (fun _ => True) (·.shiftRm16 f x c) := by
  intro s p _
  simp only [State.shiftRm16]
  split
  · rfl
  · cases x <;> rfl

/-- Shifts and rotates (R330). -/
theorem slotBlind_shift (f : ShiftFn) (g : ShiftForm) : SlotBlind (fun _ => True) (·.shift f g) := by
  intro s p _
  cases g with
  | rm8One x => exact slotBlind_shiftRm8 f x 1 s p trivial
  | rm16One x => exact slotBlind_shiftRm16 f x 1 s p trivial
  | rm8Cl x => exact slotBlind_shiftRm8 f x s.clCount s p trivial
  | rm16Cl x => exact slotBlind_shiftRm16 f x s.clCount s p trivial
  | rm8Imm x i => exact slotBlind_shiftRm8 f x _ s p trivial
  | rm16Imm x i => exact slotBlind_shiftRm16 f x _ s p trivial

end Sys2Proof.Machine
end

