-- ==== Sys2Proof/Laws/PerInstr.lean ====
section
/-! SUPPORT. Statements for all instructions, made per instruction. `EncodedLength`: the encoding of an instruction, prefixes
apart, is 1 to 6 bytes long (R90, R105). -/

namespace Sys2Proof.Laws.EncodedLength

open Sys2Proof

/-- The encoding is 1 to 6 bytes long. -/
def Statement (i : Instr) : Prop := 1 ≤ (encode i).length ∧ (encode i).length ≤ 6

theorem wordBytes_length (v : Word) : (wordBytes v).length = 2 := rfl

theorem memOp_length (reg : BitVec 3) (m : MemOp) : 1 ≤ (m.encode reg).length ∧ (m.encode reg).length ≤ 3 := by
  rcases m with off | ⟨b, _ | d | d⟩ <;> simp [MemOp.encode, Disp.bytes, wordBytes_length]

theorem rm8_length (reg : BitVec 3) (x : RM8) : 1 ≤ (encodeRM8 reg x).length ∧ (encodeRM8 reg x).length ≤ 3 := by
  cases x with
  | reg r => simp [encodeRM8]
  | mem m => exact memOp_length reg m

theorem rm16_length (reg : BitVec 3) (x : RM16) : 1 ≤ (encodeRM16 reg x).length ∧ (encodeRM16 reg x).length ≤ 3 := by
  cases x with
  | reg r => simp [encodeRM16]
  | mem m => exact memOp_length reg m

theorem alu_length (o : BitVec 3) (f : AluForm) : 1 ≤ (encodeAlu o f).length ∧ (encodeAlu o f).length ≤ 6 := by
  cases f with
  | rm8Reg8 x r | reg8Rm8 r x => have := rm8_length r.bits x; simp [encodeAlu]; omega
  | rm16Reg16 x r | reg16Rm16 r x => have := rm16_length r.bits x; simp [encodeAlu]; omega
  | alImm8 i | axImm16 i => simp [encodeAlu, wordBytes_length]
  | rm8Imm8 x i | rm8Imm8Alias x i => have := rm8_length o x; simp [encodeAlu]; omega
  | rm16Imm16 x i | rm16Imm8 x i => have := rm16_length o x; simp [encodeAlu, wordBytes_length]; omega

theorem shift_length (n : BitVec 3) (f : ShiftForm) : 1 ≤ (encodeShift n f).length ∧ (encodeShift n f).length ≤ 6 := by
  cases f with
  | rm8One x | rm8Cl x | rm8Imm x i => have := rm8_length n x; simp [encodeShift]; omega
  | rm16One x | rm16Cl x | rm16Imm x i => have := rm16_length n x; simp [encodeShift]; omega

theorem unary_length (n : BitVec 3) (f : UnaryForm) : 1 ≤ (encodeUnary n f).length ∧ (encodeUnary n f).length ≤ 6 := by
  cases f with
  | rm8 x => have := rm8_length n x; simp [encodeUnary]; omega
  | rm16 x => have := rm16_length n x; simp [encodeUnary]; omega

/-- One opcode byte and a ModRM operand. -/
theorem opRm {op : Byte} {l : List Byte} (h : 1 ≤ l.length ∧ l.length ≤ 3) :
    1 ≤ (op :: l).length ∧ (op :: l).length ≤ 6 := by
  simp; omega

/-- One opcode byte, a ModRM operand, and an immediate of at most two bytes. -/
theorem opRmImm {op : Byte} {l k : List Byte} (h : 1 ≤ l.length ∧ l.length ≤ 3) (hk : k.length ≤ 2) :
    1 ≤ (op :: (l ++ k)).length ∧ (op :: (l ++ k)).length ≤ 6 := by
  simp; omega

/-- An encoding of a length that does not depend on its operands. -/
theorem fixed {l : List Byte} (n : Nat) (h : l.length = n) (h1 : 1 ≤ n ∧ n ≤ 6) : 1 ≤ l.length ∧ l.length ≤ 6 := by
  rw [h]; exact h1

theorem movRmReg (f : MovForm) : Statement (.movRmReg f) := by
  cases f with
  | rm8Reg8 x r => exact opRm (rm8_length _ _)
  | rm16Reg16 x r => exact opRm (rm16_length _ _)
  | reg8Rm8 r x => exact opRm (rm8_length _ _)
  | reg16Rm16 r x => exact opRm (rm16_length _ _)
theorem movRmImm (f : RmImmForm) : Statement (.movRmImm f) := by
  cases f with
  | rm8Imm8 x i => exact opRmImm (rm8_length _ _) (Nat.le_of_ble_eq_true rfl)
  | rm16Imm16 x i => exact opRmImm (rm16_length _ _) (Nat.le_of_ble_eq_true rfl)
theorem movRegImm (f : RegImmForm) : Statement (.movRegImm f) := by
  cases f with
  | reg8Imm8 r i => exact fixed 2 rfl (by decide)
  | reg16Imm16 r i => exact fixed 3 rfl (by decide)
theorem movMoffs (f : MoffsForm) : Statement (.movMoffs f) := by
  cases f with
  | alMoffs o => exact fixed 3 rfl (by decide)
  | axMoffs o => exact fixed 3 rfl (by decide)
  | moffsAl o => exact fixed 3 rfl (by decide)
  | moffsAx o => exact fixed 3 rfl (by decide)
theorem movRmSreg (x : RM16) (sr : SReg) : Statement (.movRmSreg x sr) := opRm (rm16_length _ _)
theorem movSregRm (sr : SReg) (x : RM16) : Statement (.movSregRm sr x) := opRm (rm16_length _ _)
theorem pushReg (r : Reg16) : Statement (.pushReg r) := fixed 1 rfl (by decide)
theorem pushRm (x : RM16) : Statement (.pushRm x) := opRm (rm16_length _ _)
theorem pushSreg (sr : SReg) : Statement (.pushSreg sr) := fixed 1 rfl (by decide)
theorem popReg (r : Reg16) : Statement (.popReg r) := fixed 1 rfl (by decide)
theorem popRm (x : RM16) : Statement (.popRm x) := opRm (rm16_length _ _)
theorem popSreg (sr : SReg) : Statement (.popSreg sr) := fixed 1 rfl (by decide)
theorem xchgRm (f : XchgForm) : Statement (.xchgRm f) := by
  cases f with
  | reg8Rm8 r x => exact opRm (rm8_length _ _)
  | reg16Rm16 r x => exact opRm (rm16_length _ _)
theorem xchgAx (r : Reg16) : Statement (.xchgAx r) := fixed 1 rfl (by decide)
theorem inPort (f : PortForm) : Statement (.inPort f) := by
  cases f with
  | byteImm p => exact fixed 2 rfl (by decide)
  | wordImm p => exact fixed 2 rfl (by decide)
  | byteDx => exact fixed 1 rfl (by decide)
  | wordDx => exact fixed 1 rfl (by decide)
theorem outPort (f : PortForm) : Statement (.outPort f) := by
  cases f with
  | byteImm p => exact fixed 2 rfl (by decide)
  | wordImm p => exact fixed 2 rfl (by decide)
  | byteDx => exact fixed 1 rfl (by decide)
  | wordDx => exact fixed 1 rfl (by decide)
theorem xlat : Statement (.xlat) := fixed 1 rfl (by decide)
theorem lea (r : Reg16) (m : MemOp) : Statement (.lea r m) := opRm (memOp_length _ _)
theorem lds (r : Reg16) (m : MemOp) : Statement (.lds r m) := opRm (memOp_length _ _)
theorem les (r : Reg16) (m : MemOp) : Statement (.les r m) := opRm (memOp_length _ _)
theorem lahf : Statement (.lahf) := fixed 1 rfl (by decide)
theorem sahf : Statement (.sahf) := fixed 1 rfl (by decide)
theorem pushf : Statement (.pushf) := fixed 1 rfl (by decide)
theorem popf : Statement (.popf) := fixed 1 rfl (by decide)
theorem add (f : AluForm) : Statement (.add f) := alu_length _ f
theorem adc (f : AluForm) : Statement (.adc f) := alu_length _ f
theorem sub (f : AluForm) : Statement (.sub f) := alu_length _ f
theorem sbb (f : AluForm) : Statement (.sbb f) := alu_length _ f
theorem cmp (f : AluForm) : Statement (.cmp f) := alu_length _ f
theorem inc (f : IncForm) : Statement (.inc f) := by
  cases f with
  | reg16 r => exact fixed 1 rfl (by decide)
  | rm8 x => exact opRm (rm8_length _ _)
  | rm16 x => exact opRm (rm16_length _ _)
theorem dec (f : IncForm) : Statement (.dec f) := by
  cases f with
  | reg16 r => exact fixed 1 rfl (by decide)
  | rm8 x => exact opRm (rm8_length _ _)
  | rm16 x => exact opRm (rm16_length _ _)
theorem neg (f : UnaryForm) : Statement (.neg f) := unary_length _ f
theorem mul (f : UnaryForm) : Statement (.mul f) := unary_length _ f
theorem imul (f : UnaryForm) : Statement (.imul f) := unary_length _ f
theorem div (f : UnaryForm) : Statement (.div f) := unary_length _ f
theorem idiv (f : UnaryForm) : Statement (.idiv f) := unary_length _ f
theorem daa : Statement (.daa) := fixed 1 rfl (by decide)
theorem das : Statement (.das) := fixed 1 rfl (by decide)
theorem aaa : Statement (.aaa) := fixed 1 rfl (by decide)
theorem aas : Statement (.aas) := fixed 1 rfl (by decide)
theorem aam (base : Byte) : Statement (.aam base) := fixed 2 rfl (by decide)
theorem aad (base : Byte) : Statement (.aad base) := fixed 2 rfl (by decide)
theorem cbw : Statement (.cbw) := fixed 1 rfl (by decide)
theorem cwd : Statement (.cwd) := fixed 1 rfl (by decide)
theorem and (f : AluForm) : Statement (.and f) := alu_length _ f
theorem or (f : AluForm) : Statement (.or f) := alu_length _ f
theorem xor (f : AluForm) : Statement (.xor f) := alu_length _ f
theorem test (f : TestForm) : Statement (.test f) := by
  cases f with
  | rm8Reg8 x r => exact opRm (rm8_length _ _)
  | rm16Reg16 x r => exact opRm (rm16_length _ _)
  | alImm8 i => exact fixed 2 rfl (by decide)
  | axImm16 i => exact fixed 3 rfl (by decide)
  | rm8Imm8 x i => exact opRmImm (rm8_length _ _) (Nat.le_of_ble_eq_true rfl)
  | rm16Imm16 x i => exact opRmImm (rm16_length _ _) (Nat.le_of_ble_eq_true rfl)
theorem not (f : UnaryForm) : Statement (.not f) := unary_length _ f
theorem shl (f : ShiftForm) : Statement (.shl f) := shift_length _ f
theorem shr (f : ShiftForm) : Statement (.shr f) := shift_length _ f
theorem sar (f : ShiftForm) : Statement (.sar f) := shift_length _ f
theorem rol (f : ShiftForm) : Statement (.rol f) := shift_length _ f
theorem ror (f : ShiftForm) : Statement (.ror f) := shift_length _ f
theorem rcl (f : ShiftForm) : Statement (.rcl f) := shift_length _ f
theorem rcr (f : ShiftForm) : Statement (.rcr f) := shift_length _ f
theorem movsb : Statement (.movsb) := fixed 1 rfl (by decide)
theorem movsw : Statement (.movsw) := fixed 1 rfl (by decide)
theorem cmpsb : Statement (.cmpsb) := fixed 1 rfl (by decide)
theorem cmpsw : Statement (.cmpsw) := fixed 1 rfl (by decide)
theorem scasb : Statement (.scasb) := fixed 1 rfl (by decide)
theorem scasw : Statement (.scasw) := fixed 1 rfl (by decide)
theorem lodsb : Statement (.lodsb) := fixed 1 rfl (by decide)
theorem lodsw : Statement (.lodsw) := fixed 1 rfl (by decide)
theorem stosb : Statement (.stosb) := fixed 1 rfl (by decide)
theorem stosw : Statement (.stosw) := fixed 1 rfl (by decide)
theorem jmpShort (d : Byte) : Statement (.jmpShort d) := fixed 2 rfl (by decide)
theorem jmpNear (d : Word) : Statement (.jmpNear d) := fixed 3 rfl (by decide)
theorem jmpRm (x : RM16) : Statement (.jmpRm x) := opRm (rm16_length _ _)
theorem jmpFar (off sg : Word) : Statement (.jmpFar off sg) := fixed 5 rfl (by decide)
theorem jmpMemFar (m : MemOp) : Statement (.jmpMemFar m) := opRm (memOp_length _ _)
theorem callNear (d : Word) : Statement (.callNear d) := fixed 3 rfl (by decide)
theorem callRm (x : RM16) : Statement (.callRm x) := opRm (rm16_length _ _)
theorem callFar (off sg : Word) : Statement (.callFar off sg) := fixed 5 rfl (by decide)
theorem callMemFar (m : MemOp) : Statement (.callMemFar m) := opRm (memOp_length _ _)
theorem ret : Statement (.ret) := fixed 1 rfl (by decide)
theorem retImm (k : Word) : Statement (.retImm k) := fixed 3 rfl (by decide)
theorem retf : Statement (.retf) := fixed 1 rfl (by decide)
theorem retfImm (k : Word) : Statement (.retfImm k) := fixed 3 rfl (by decide)
theorem jo (d : Byte) : Statement (.jo d) := fixed 2 rfl (by decide)
theorem jno (d : Byte) : Statement (.jno d) := fixed 2 rfl (by decide)
theorem jb (d : Byte) : Statement (.jb d) := fixed 2 rfl (by decide)
theorem jae (d : Byte) : Statement (.jae d) := fixed 2 rfl (by decide)
theorem je (d : Byte) : Statement (.je d) := fixed 2 rfl (by decide)
theorem jne (d : Byte) : Statement (.jne d) := fixed 2 rfl (by decide)
theorem jbe (d : Byte) : Statement (.jbe d) := fixed 2 rfl (by decide)
theorem ja (d : Byte) : Statement (.ja d) := fixed 2 rfl (by decide)
theorem js (d : Byte) : Statement (.js d) := fixed 2 rfl (by decide)
theorem jns (d : Byte) : Statement (.jns d) := fixed 2 rfl (by decide)
theorem jp (d : Byte) : Statement (.jp d) := fixed 2 rfl (by decide)
theorem jnp (d : Byte) : Statement (.jnp d) := fixed 2 rfl (by decide)
theorem jl (d : Byte) : Statement (.jl d) := fixed 2 rfl (by decide)
theorem jge (d : Byte) : Statement (.jge d) := fixed 2 rfl (by decide)
theorem jle (d : Byte) : Statement (.jle d) := fixed 2 rfl (by decide)
theorem jg (d : Byte) : Statement (.jg d) := fixed 2 rfl (by decide)
theorem loop (d : Byte) : Statement (.loop d) := fixed 2 rfl (by decide)
theorem loopz (d : Byte) : Statement (.loopz d) := fixed 2 rfl (by decide)
theorem loopnz (d : Byte) : Statement (.loopnz d) := fixed 2 rfl (by decide)
theorem jcxz (d : Byte) : Statement (.jcxz d) := fixed 2 rfl (by decide)
theorem int (n : Byte) : Statement (.int n) := fixed 2 rfl (by decide)
theorem int3 : Statement (.int3) := fixed 1 rfl (by decide)
theorem into : Statement (.into) := fixed 1 rfl (by decide)
theorem iret : Statement (.iret) := fixed 1 rfl (by decide)
theorem clc : Statement (.clc) := fixed 1 rfl (by decide)
theorem stc : Statement (.stc) := fixed 1 rfl (by decide)
theorem cmc : Statement (.cmc) := fixed 1 rfl (by decide)
theorem cld : Statement (.cld) := fixed 1 rfl (by decide)
theorem std : Statement (.std) := fixed 1 rfl (by decide)
theorem cli : Statement (.cli) := fixed 1 rfl (by decide)
theorem sti : Statement (.sti) := fixed 1 rfl (by decide)
theorem hlt : Statement (.hlt) := fixed 1 rfl (by decide)
theorem wait : Statement (.wait) := fixed 1 rfl (by decide)
theorem nop : Statement (.nop) := fixed 1 rfl (by decide)
theorem esc (n : BitVec 3) (reg : BitVec 3) (x : RM16) : Statement (.esc n reg x) := opRm (rm16_length _ _)
theorem segEs : Statement (.segEs) := fixed 1 rfl (by decide)
theorem segCs : Statement (.segCs) := fixed 1 rfl (by decide)
theorem segSs : Statement (.segSs) := fixed 1 rfl (by decide)
theorem segDs : Statement (.segDs) := fixed 1 rfl (by decide)
theorem lock : Statement (.lock) := fixed 1 rfl (by decide)
theorem repne : Statement (.repne) := fixed 1 rfl (by decide)
theorem rep : Statement (.rep) := fixed 1 rfl (by decide)
theorem pusha : Statement (.pusha) := fixed 1 rfl (by decide)
theorem popa : Statement (.popa) := fixed 1 rfl (by decide)
theorem bound (r : Reg16) (m : MemOp) : Statement (.bound r m) := opRm (memOp_length _ _)
theorem pushImm16 (i : Word) : Statement (.pushImm16 i) := fixed 3 rfl (by decide)
theorem pushImm8 (i : Byte) : Statement (.pushImm8 i) := fixed 2 rfl (by decide)
theorem imulImm16 (r : Reg16) (x : RM16) (i : Word) : Statement (.imulImm16 r x i) := opRmImm (rm16_length _ _) (Nat.le_of_ble_eq_true rfl)
theorem imulImm8 (r : Reg16) (x : RM16) (i : Byte) : Statement (.imulImm8 r x i) := opRmImm (rm16_length _ _) (Nat.le_of_ble_eq_true rfl)
theorem insb : Statement (.insb) := fixed 1 rfl (by decide)
theorem insw : Statement (.insw) := fixed 1 rfl (by decide)
theorem outsb : Statement (.outsb) := fixed 1 rfl (by decide)
theorem outsw : Statement (.outsw) := fixed 1 rfl (by decide)
theorem enter (size : Word) (level : Byte) : Statement (.enter size level) := fixed 4 rfl (by decide)
theorem leave : Statement (.leave) := fixed 1 rfl (by decide)
theorem unrecognized (op : Byte) : Statement (.unrecognized op) := fixed 1 rfl (by decide)
theorem decodeFault (op modrm : Byte) : Statement (.decodeFault op modrm) := fixed 2 rfl (by decide)

end Sys2Proof.Laws.EncodedLength
end

