-- ==== Sys2Proof/Laws/Stack.lean ====
section
/-! SUPPORT. The stack: words pushed one after the other stand apart (R175, R177), and `PushedAll` of `Safety.lean` grows by
one push. -/

namespace Sys2Proof.Claims
open Sys2Proof Sys2Proof.Machine

/-- Words pushed apart lie at different bytes. -/
theorem slot_ne (sg sp : Word) {j k : Nat} (hjk : j < k) (hk : k < 32768) {a : Nat}
    (ha : a ∈ wordAt sg (sp - BitVec.ofNat 16 (2 * j))) : a ∉ wordAt sg (sp - BitVec.ofNat 16 (2 * k)) := by
  simp only [wordAt, List.mem_cons, List.not_mem_nil, or_false] at ha ⊢
  intro hb
  have key : ∀ x y : Word, x ≠ y → phys sg x ≠ phys sg y := fun x y h e => h (phys_inj e)
  rcases ha with ha | ha <;> rcases hb with hb | hb <;> rw [ha] at hb <;> revert hb <;> apply key <;>
    intro e <;> have := congrArg BitVec.toNat e <;>
    simp only [BitVec.toNat_sub, BitVec.toNat_add, BitVec.toNat_ofNat] at this <;> omega

theorem PushedAll.nil (s : State) : PushedAll s s [] :=
  ⟨by simp, fun _ _ => rfl, by simp, fun _ _ _ => rfl⟩

theorem readWord_of_bytes {s t : State} {sg off : Word} (h : ∀ a ∈ wordAt sg off, ∀ sg2 off2 : Word, phys sg2 off2 = a →
    t.readByte sg2 off2 = s.readByte sg2 off2) : t.readWord sg off = s.readWord sg off := by
  unfold State.readWord
  rw [h (phys sg off) (by simp [wordAt]) sg off rfl, h (phys sg (off + 1#16)) (by simp [wordAt]) sg (off + 1#16) rfl]

theorem MemSameBut.readWord {s t : State} {l : List Nat} (h : MemSameBut s t l) {sg off : Word}
    (hd : ∀ a ∈ wordAt sg off, a ∉ l) : t.readWord sg off = s.readWord sg off :=
  readWord_of_bytes fun a ha sg2 off2 e => h sg2 off2 (e ▸ hd a ha)

theorem PushedAll.push {s t u : State} {l : List Word} {v : Word} (h : PushedAll s t l) (hp : Pushed t u v)
    (hs : t.sreg .ss = s.sreg .ss) (hl : l.length < 32767) : PushedAll s u (l ++ [v]) := by
  obtain ⟨h1, h2, h3, h4⟩ := h
  obtain ⟨p1, p2, p3, p4⟩ := hp
  have hsp : t.reg16 .sp - 2#16 = s.reg16 .sp - BitVec.ofNat 16 (2 * (l.length + 1)) := by
    rw [h1]; apply BitVec.eq_of_toNat_eq
    simp only [BitVec.toNat_sub, BitVec.toNat_ofNat]; omega
  rw [hs, hsp] at p3 p4
  refine ⟨by rw [p1, hsp]; simp, fun r hr => by rw [p2 r hr, h2 r hr], fun k hk => ?_, fun sg off hx => ?_⟩
  · rcases Nat.lt_or_ge k l.length with hk' | hk'
    · rw [List.getElem_append_left hk', ← h3 k hk']
      exact p4.readWord fun a ha => slot_ne _ _ (Nat.add_lt_add_right hk' 1) (by omega) ha
    · have : k = l.length := by simp at hk; omega
      subst this
      simpa using p3
  · have hx' : ∀ k, k < l.length + 1 → phys sg off ∉ wordAt (s.sreg .ss) (s.reg16 .sp - BitVec.ofNat 16 (2 * (k + 1))) := by
      intro k hk hm
      apply hx
      simp only [List.mem_flatMap, List.mem_range, List.length_append, List.length_singleton]
      exact ⟨k, hk, hm⟩
    rw [p4 sg off (hx' _ (Nat.lt_succ_self _)), h4 sg off]
    simp only [List.mem_flatMap, List.mem_range, not_exists, not_and]
    exact fun k hk => hx' k (by omega)

theorem PushedAll.congr {s t u : State} {l : List Word} (h : PushedAll s t l) (hr : u.regs = t.regs)
    (hm : u.mem = t.mem) : PushedAll s u l := by
  have e2 : ∀ r, u.reg16 r = t.reg16 r := fun r => by unfold State.reg16; rw [hr]
  have e3 : ∀ sg off, u.readByte sg off = t.readByte sg off := fun _ _ => readByte_of_mem hm _ _
  have e4 : ∀ sg off, u.readWord sg off = t.readWord sg off := fun _ _ => readWord_of_mem hm _ _
  unfold PushedAll RegsSameBut MemSameBut at *
  simp only [e2, e3, e4]
  exact h

theorem Pushed.congr {s t u : State} {v : Word} (h : Pushed s t v) (hr : u.regs = t.regs)
    (hm : u.mem = t.mem) : Pushed s u v := by
  have e2 : ∀ r, u.reg16 r = t.reg16 r := fun r => by unfold State.reg16; rw [hr]
  have e3 : ∀ sg off, u.readByte sg off = t.readByte sg off := fun _ _ => readByte_of_mem hm _ _
  have e4 : ∀ sg off, u.readWord sg off = t.readWord sg off := fun _ _ => readWord_of_mem hm _ _
  unfold Pushed RegsSameBut MemSameBut at *
  simp only [e2, e3, e4]
  exact h
end Sys2Proof.Claims
end

