-- ==== Sys2Proof/Tests/Slice0.lean ====
section
/-! SUPPORT. Tests: ill-formed terms that `Instr.wf` refuses; for every constructor the decoding of a word written out from the
encoding tables of `30_encoding.md` and the instruction sections; the vectors of `95_test_vectors.md` (named by their section);
and, for every statement that has hypotheses, a state that meets them. -/

namespace Sys2Proof.Tests

open Sys2Proof Sys2Proof.Machine Sys2Proof.Claims

/-! ## Well-formedness -/

/-- `[BP]` with no displacement has no encoding: those bits are the direct address (R98). -/
theorem test_wf_bp_none :
    (Instr.lea .ax (.based .bp .none)).wf .i8086 = false ∧ (Instr.jmpRm (.mem (.based .bp .none))).wf .i8086 = false ∧
    (Instr.add (.rm8Imm8 (.mem (.based .bp .none)) 1#8)).wf .i80186 = false ∧
    (Instr.movRmReg (.rm8Reg8 (.mem (.based .bp .none)) .al)).wf .i8086 = false ∧
    (Instr.movRmImm (.rm16Imm16 (.mem (.based .bp .none)) 1#16)).wf .i8086 = false ∧
    (Instr.xchgRm (.reg8Rm8 .al (.mem (.based .bp .none)))).wf .i8086 = false ∧
    (Instr.inc (.rm8 (.mem (.based .bp .none)))).wf .i8086 = false ∧
    (Instr.neg (.rm16 (.mem (.based .bp .none)))).wf .i8086 = false ∧
    (Instr.test (.rm8Imm8 (.mem (.based .bp .none)) 1#8)).wf .i8086 = false ∧
    (Instr.shl (.rm8One (.mem (.based .bp .none)))).wf .i8086 = false ∧
    (Instr.esc 1#3 0#3 (.mem (.based .bp .none))).wf .i8086 = false := by decide

/-- CS is no destination of MOV or POP (R121, R123), and the byte of XCHG AX, AX is NOP (R213). -/
theorem test_wf_cs_and_xchg :
    (Instr.movSregRm .cs (.reg .ax)).wf .i8086 = false ∧ (Instr.popSreg .cs).wf .i80186 = false ∧
    (Instr.xchgAx .ax).wf .i8086 = false := by decide

/-- A row of the 80186 level is no row of the 8086 level (R105). -/
theorem test_wf_level :
    (∀ i ∈ [Instr.pusha, .popa, .bound .ax (.direct 0#16), .pushImm16 1#16, .pushImm8 1#8,
      .imulImm16 .ax (.reg .bx) 1#16, .imulImm8 .ax (.reg .bx) 1#8, .insb, .insw, .outsb, .outsw, .enter 0#16 0#8, .leave,
      .shl (.rm8Imm (.reg .al) 1#8), .rcr (.rm16Imm (.reg .ax) 1#8)],
      i.wf .i8086 = false ∧ i.wf .i80186 = true) := by decide

/-- A fault row is one of its bytes only, at its level (R121, R123). -/
theorem test_wf_fault_rows :
    (Instr.unrecognized 0x90#8).wf .i8086 = false ∧ (Instr.unrecognized 0x60#8).wf .i80186 = false ∧
    (Instr.unrecognized 0x60#8).wf .i8086 = true ∧ (Instr.decodeFault 0x8D#8 0x00#8).wf .i8086 = false ∧
    (Instr.decodeFault 0x8D#8 0xC0#8).wf .i8086 = true ∧ (Instr.decodeFault 0x62#8 0xC0#8).wf .i8086 = false := by decide

/-! ## Decoding: every constructor -/

/-- What a list of bytes decodes to, at the 8086 level. -/
def dec (l : List Byte) : Instr × Nat := decode .i8086 (byteAt l)

/-- What a list of bytes decodes to, at the 80186 level. -/
def dec186 (l : List Byte) : Instr × Nat := decode .i80186 (byteAt l)

theorem test_decode_mov :
    dec [0x88, 0xC3] = (.movRmReg (.rm8Reg8 (.reg .bl) .al), 2) ∧ dec [0x89, 0xD8] = (.movRmReg (.rm16Reg16 (.reg .ax) .bx), 2) ∧
    dec [0x8A, 0xE0] = (.movRmReg (.reg8Rm8 .ah (.reg .al)), 2) ∧
    dec [0x8B, 0x87, 0x00, 0x01] = (.movRmReg (.reg16Rm16 .ax (.mem (.based .bx (.disp16 0x0100)))), 4) ∧
    dec [0xC6, 0x06, 0x00, 0x05, 0x7F] = (.movRmImm (.rm8Imm8 (.mem (.direct 0x0500)) 0x7F), 5) ∧
    dec [0xC7, 0x40, 0xFE, 0x80, 0xFF] = (.movRmImm (.rm16Imm16 (.mem (.based .bxSi (.disp8 0xFE))) 0xFF80), 5) ∧
    dec [0xB4, 0x12] = (.movRegImm (.reg8Imm8 .ah 0x12), 2) ∧ dec [0xBF, 0x34, 0x12] = (.movRegImm (.reg16Imm16 .di 0x1234), 3) ∧
    dec [0xA0, 0x10, 0x00] = (.movMoffs (.alMoffs 0x0010), 3) ∧ dec [0xA1, 0x00, 0x05] = (.movMoffs (.axMoffs 0x0500), 3) ∧
    dec [0xA2, 0x10, 0x00] = (.movMoffs (.moffsAl 0x0010), 3) ∧ dec [0xA3, 0x00, 0x05] = (.movMoffs (.moffsAx 0x0500), 3) ∧
    dec [0x8C, 0xD8] = (.movRmSreg (.reg .ax) .ds, 2) ∧ dec [0x8E, 0xD0] = (.movSregRm .ss (.reg .ax), 2) := by decide

theorem test_decode_stack_and_exchange :
    dec [0x54] = (.pushReg .sp, 1) ∧ dec [0xFF, 0x36, 0x00, 0x05] = (.pushRm (.mem (.direct 0x0500)), 4) ∧
    dec [0x0E] = (.pushSreg .cs, 1) ∧ dec [0x1E] = (.pushSreg .ds, 1) ∧ dec [0x5C] = (.popReg .sp, 1) ∧
    dec [0x8F, 0x06, 0x00, 0x05] = (.popRm (.mem (.direct 0x0500)), 4) ∧ dec [0x07] = (.popSreg .es, 1) ∧
    dec [0x17] = (.popSreg .ss, 1) ∧ dec [0x86, 0xE0] = (.xchgRm (.reg8Rm8 .ah (.reg .al)), 2) ∧
    dec [0x87, 0x07] = (.xchgRm (.reg16Rm16 .ax (.mem (.based .bx .none))), 2) ∧ dec [0x93] = (.xchgAx .bx, 1) ∧
    dec [0x9F] = (.lahf, 1) ∧ dec [0x9E] = (.sahf, 1) ∧ dec [0x9C] = (.pushf, 1) ∧ dec [0x9D] = (.popf, 1) := by decide

theorem test_decode_ports_and_addresses :
    dec [0xE4, 0x60] = (.inPort (.byteImm 0x60), 2) ∧ dec [0xE5, 0x60] = (.inPort (.wordImm 0x60), 2) ∧
    dec [0xEC] = (.inPort .byteDx, 1) ∧ dec [0xED] = (.inPort .wordDx, 1) ∧ dec [0xE6, 0x60] = (.outPort (.byteImm 0x60), 2) ∧
    dec [0xE7, 0x60] = (.outPort (.wordImm 0x60), 2) ∧ dec [0xEE] = (.outPort .byteDx, 1) ∧ dec [0xEF] = (.outPort .wordDx, 1) ∧
    dec [0xD7] = (.xlat, 1) ∧ dec [0x8D, 0x40, 0x05] = (.lea .ax (.based .bxSi (.disp8 0x05)), 3) ∧
    dec [0xC5, 0x1E, 0x00, 0x05] = (.lds .bx (.direct 0x0500), 4) ∧ dec [0xC4, 0x3E, 0x00, 0x05] = (.les .di (.direct 0x0500), 4) := by
  decide

/-- The ten forms, for ADD (R270), and the operation number of the other seven (R106). -/
theorem test_decode_alu :
    dec [0x00, 0xD8] = (.add (.rm8Reg8 (.reg .al) .bl), 2) ∧ dec [0x01, 0xD8] = (.add (.rm16Reg16 (.reg .ax) .bx), 2) ∧
    dec [0x02, 0xD8] = (.add (.reg8Rm8 .bl (.reg .al)), 2) ∧ dec [0x03, 0xD8] = (.add (.reg16Rm16 .bx (.reg .ax)), 2) ∧
    dec [0x04, 0x01] = (.add (.alImm8 0x01), 2) ∧ dec [0x05, 0x34, 0x12] = (.add (.axImm16 0x1234), 3) ∧
    dec [0x80, 0xC3, 0x01] = (.add (.rm8Imm8 (.reg .bl) 0x01), 3) ∧
    dec [0x81, 0xC0, 0x34, 0x12] = (.add (.rm16Imm16 (.reg .ax) 0x1234), 4) ∧
    dec [0x82, 0xC3, 0x01] = (.add (.rm8Imm8Alias (.reg .bl) 0x01), 3) ∧ dec [0x83, 0xC0, 0xFF] = (.add (.rm16Imm8 (.reg .ax) 0xFF), 3) := by
  decide

theorem test_decode_alu_numbers :
    dec [0x0C, 0x01] = (.or (.alImm8 0x01), 2) ∧ dec [0x14, 0x01] = (.adc (.alImm8 0x01), 2) ∧
    dec [0x1C, 0x01] = (.sbb (.alImm8 0x01), 2) ∧ dec [0x24, 0x01] = (.and (.alImm8 0x01), 2) ∧
    dec [0x2C, 0x01] = (.sub (.alImm8 0x01), 2) ∧ dec [0x34, 0x01] = (.xor (.alImm8 0x01), 2) ∧
    dec [0x3C, 0x01] = (.cmp (.alImm8 0x01), 2) ∧ dec [0x83, 0x6E, 0x02, 0x80] = (.sub (.rm16Imm8 (.mem (.based .bp (.disp8 0x02))) 0x80), 4) ∧
    dec [0x80, 0xF8, 0x05] = (.cmp (.rm8Imm8 (.reg .al) 0x05), 3) ∧ dec [0x12, 0x90, 0xF4, 0x00] = (.adc (.reg8Rm8 .dl (.mem (.based .bxSi (.disp16 0x00F4)))), 4) := by
  decide

theorem test_decode_unary_and_adjust :
    dec [0x47] = (.inc (.reg16 .di), 1) ∧ dec [0xFE, 0xC4] = (.inc (.rm8 (.reg .ah)), 2) ∧ dec [0xFF, 0xC1] = (.inc (.rm16 (.reg .cx)), 2) ∧
    dec [0x48] = (.dec (.reg16 .ax), 1) ∧ dec [0xFE, 0x08] = (.dec (.rm8 (.mem (.based .bxSi .none))), 2) ∧
    dec [0xF6, 0xD3] = (.not (.rm8 (.reg .bl)), 2) ∧ dec [0xF7, 0xDB] = (.neg (.rm16 (.reg .bx)), 2) ∧
    dec [0xF6, 0xE3] = (.mul (.rm8 (.reg .bl)), 2) ∧ dec [0xF7, 0xEB] = (.imul (.rm16 (.reg .bx)), 2) ∧
    dec [0xF6, 0xF3] = (.div (.rm8 (.reg .bl)), 2) ∧ dec [0xF7, 0xFB] = (.idiv (.rm16 (.reg .bx)), 2) ∧
    dec [0x27] = (.daa, 1) ∧ dec [0x2F] = (.das, 1) ∧ dec [0x37] = (.aaa, 1) ∧ dec [0x3F] = (.aas, 1) ∧
    dec [0xD4, 0x0A] = (.aam 0x0A, 2) ∧ dec [0xD5, 0x0A] = (.aad 0x0A, 2) ∧ dec [0x98] = (.cbw, 1) ∧ dec [0x99] = (.cwd, 1) := by
  decide

theorem test_decode_test_and_shift :
    dec [0x84, 0xC3] = (.test (.rm8Reg8 (.reg .bl) .al), 2) ∧ dec [0x85, 0xC3] = (.test (.rm16Reg16 (.reg .bx) .ax), 2) ∧
    dec [0xA8, 0x80] = (.test (.alImm8 0x80), 2) ∧ dec [0xA9, 0x00, 0x80] = (.test (.axImm16 0x8000), 3) ∧
    dec [0xF6, 0xC3, 0x01] = (.test (.rm8Imm8 (.reg .bl) 0x01), 3) ∧ dec [0xF7, 0xC3, 0x01, 0x00] = (.test (.rm16Imm16 (.reg .bx) 0x0001), 4) ∧
    dec [0xD0, 0xC0] = (.rol (.rm8One (.reg .al)), 2) ∧ dec [0xD1, 0xC8] = (.ror (.rm16One (.reg .ax)), 2) ∧
    dec [0xD2, 0xD0] = (.rcl (.rm8Cl (.reg .al)), 2) ∧ dec [0xD3, 0xD8] = (.rcr (.rm16Cl (.reg .ax)), 2) ∧
    dec [0xD3, 0xE0] = (.shl (.rm16Cl (.reg .ax)), 2) ∧ dec [0xD0, 0xE8] = (.shr (.rm8One (.reg .al)), 2) ∧
    dec [0xD1, 0xF8] = (.sar (.rm16One (.reg .ax)), 2) ∧ dec186 [0xC0, 0xE0, 0x03] = (.shl (.rm8Imm (.reg .al) 0x03), 3) ∧
    dec186 [0xC1, 0xF8, 0x03] = (.sar (.rm16Imm (.reg .ax) 0x03), 3) := by decide

theorem test_decode_strings :
    dec [0xA4] = (.movsb, 1) ∧ dec [0xA5] = (.movsw, 1) ∧ dec [0xA6] = (.cmpsb, 1) ∧ dec [0xA7] = (.cmpsw, 1) ∧
    dec [0xAA] = (.stosb, 1) ∧ dec [0xAB] = (.stosw, 1) ∧ dec [0xAC] = (.lodsb, 1) ∧ dec [0xAD] = (.lodsw, 1) ∧
    dec [0xAE] = (.scasb, 1) ∧ dec [0xAF] = (.scasw, 1) ∧ dec186 [0x6C] = (.insb, 1) ∧ dec186 [0x6D] = (.insw, 1) ∧
    dec186 [0x6E] = (.outsb, 1) ∧ dec186 [0x6F] = (.outsw, 1) := by decide

theorem test_decode_jumps_and_calls :
    dec [0xEB, 0x03] = (.jmpShort 0x03, 2) ∧ dec [0xE9, 0xFD, 0xFF] = (.jmpNear 0xFFFD, 3) ∧ dec [0xFF, 0xE3] = (.jmpRm (.reg .bx), 2) ∧
    dec [0xEA, 0x00, 0x01, 0x00, 0xF0] = (.jmpFar 0x0100 0xF000, 5) ∧ dec [0xFF, 0x2E, 0x00, 0x05] = (.jmpMemFar (.direct 0x0500), 4) ∧
    dec [0xE8, 0x04, 0x00] = (.callNear 0x0004, 3) ∧ dec [0xFF, 0xD3] = (.callRm (.reg .bx), 2) ∧
    dec [0x9A, 0x00, 0x01, 0x00, 0x20] = (.callFar 0x0100 0x2000, 5) ∧ dec [0xFF, 0x1F] = (.callMemFar (.based .bx .none), 2) ∧
    dec [0xC3] = (.ret, 1) ∧ dec [0xC2, 0x04, 0x00] = (.retImm 0x0004, 3) ∧ dec [0xCB] = (.retf, 1) ∧
    dec [0xCA, 0x02, 0x00] = (.retfImm 0x0002, 3) ∧ dec [0xCD, 0x21] = (.int 0x21, 2) ∧ dec [0xCC] = (.int3, 1) ∧
    dec [0xCE] = (.into, 1) ∧ dec [0xCF] = (.iret, 1) := by decide

theorem test_decode_conditions :
    (List.range 16).map (fun k => (dec [BitVec.ofNat 8 (0x70 + k), 0x03]).1) =
      [.jo 3, .jno 3, .jb 3, .jae 3, .je 3, .jne 3, .jbe 3, .ja 3, .js 3, .jns 3, .jp 3, .jnp 3, .jl 3, .jge 3, .jle 3, .jg 3] ∧
    dec [0xE0, 0xFC] = (.loopnz 0xFC, 2) ∧ dec [0xE1, 0xFC] = (.loopz 0xFC, 2) ∧ dec [0xE2, 0xFC] = (.loop 0xFC, 2) ∧
    dec [0xE3, 0x10] = (.jcxz 0x10, 2) := by decide

theorem test_decode_control_and_prefixes :
    dec [0xF8] = (.clc, 1) ∧ dec [0xF9] = (.stc, 1) ∧ dec [0xF5] = (.cmc, 1) ∧ dec [0xFC] = (.cld, 1) ∧ dec [0xFD] = (.std, 1) ∧
    dec [0xFA] = (.cli, 1) ∧ dec [0xFB] = (.sti, 1) ∧ dec [0xF4] = (.hlt, 1) ∧ dec [0x9B] = (.wait, 1) ∧ dec [0x90] = (.nop, 1) ∧
    dec [0xD8, 0x06, 0x00, 0x05] = (.esc 0 0 (.mem (.direct 0x0500)), 4) ∧ dec [0xDF, 0xF9] = (.esc 7 7 (.reg .cx), 2) ∧
    dec [0x26] = (.segEs, 1) ∧ dec [0x2E] = (.segCs, 1) ∧ dec [0x36] = (.segSs, 1) ∧ dec [0x3E] = (.segDs, 1) ∧
    dec [0xF0] = (.lock, 1) ∧ dec [0xF2] = (.repne, 1) ∧ dec [0xF3] = (.rep, 1) := by decide

theorem test_decode_80186_and_faults :
    dec186 [0x60] = (.pusha, 1) ∧ dec186 [0x61] = (.popa, 1) ∧ dec186 [0x62, 0x07] = (.bound .ax (.based .bx .none), 2) ∧
    dec186 [0x68, 0x34, 0x12] = (.pushImm16 0x1234, 3) ∧ dec186 [0x6A, 0xFF] = (.pushImm8 0xFF, 2) ∧
    dec186 [0x69, 0xC3, 0x34, 0x12] = (.imulImm16 .ax (.reg .bx) 0x1234, 4) ∧ dec186 [0x6B, 0xC3, 0xFF] = (.imulImm8 .ax (.reg .bx) 0xFF, 3) ∧
    dec186 [0xC8, 0x10, 0x00, 0x02] = (.enter 0x0010 0x02, 4) ∧ dec186 [0xC9] = (.leave, 1) ∧ dec [0x0F] = (.unrecognized 0x0F, 1) ∧
    dec [0x60] = (.unrecognized 0x60, 1) ∧ dec [0x8D, 0xC0] = (.decodeFault 0x8D 0xC0, 2) ∧ dec [0x8E, 0xC8] = (.decodeFault 0x8E 0xC8, 2) ∧
    dec [0xC6, 0xC8, 0x12] = (.decodeFault 0xC6 0xC8, 2) ∧ dec [0xFF, 0xE8] = (.decodeFault 0xFF 0xE8, 2) := by decide

/-- A word of the opcode table as the host gives it: the opcode in the high byte (log 11); a word of the 80186 level is read
at that level (log 12). -/
theorem test_table_word :
    decodeTableWord 16 0x83E8 = some (.sub (.rm16Imm8 (.reg .ax) 0x00)) ∧ decodeTableWord 8 0x90 = some .nop ∧
    decodeTableWord 16 0x6200 = some (.bound .ax (.based .bxSi .none)) := by decide

/-! ## Vectors of `95_test_vectors.md` -/

/-- A state with CS = DS = ES = SS = 0 and IP = 0100h, all flags 0. -/
def base : State := { State.reset with sregs := ⟨0, 0, 0, 0⟩, ip := 0x0100 }

/-- Bytes stored from an address of segment 0 on. -/
def put (a : Word) (l : List Byte) (s : State) : State := s.storeBytes 0 a l

/-- The state after one step with these bytes at CS:IP. -/
def run (l : List Byte) (s : State) : State :=
  match step (s.storeBytes (s.sreg .cs) s.ip l) with
  | .next t => t
  | _ => s

/-- CF, PF, AF, ZF, SF, OF, in the order of the vectors' columns. -/
def six (f : Flags) : List Bool := [f.cf, f.pf, f.af, f.zf, f.sf, f.of]

/-- Six digits as flags. -/
def bits (l : List Nat) : List Bool := l.map (· == 1)

/-- A result with its six flags, CF being `cf` before. -/
def is {w : Nat} (x : BitVec w × FlagEffect) (cf : Bool) (r : BitVec w) (l : List Nat) : Bool :=
  x.1 == r && six (x.2.apply { Flags.zero with cf := cf } 0) == bits l

/-- Section 4, ADD and ADC. -/
theorem test_vectors_add :
    is (addN 0xFF#8 0x01#8 false) false 0x00#8 [1, 1, 1, 1, 0, 0] ∧ is (addN 0x7F#8 0x01#8 false) false 0x80#8 [0, 0, 1, 0, 1, 1] ∧
    is (addN 0x80#8 0x80#8 false) false 0x00#8 [1, 1, 0, 1, 0, 1] ∧ is (addN 0x7FFF#16 0x0001#16 false) false 0x8000#16 [0, 1, 1, 0, 1, 1] ∧
    is (addN 0xFFFF#16 0xFFFF#16 false) false 0xFFFE#16 [1, 0, 1, 0, 1, 0] ∧ is (addN 0x1234#16 0x4321#16 false) false 0x5555#16 [0, 1, 0, 0, 0, 0] ∧
    is (addN 0x0F#8 0x00#8 true) false 0x10#8 [0, 0, 1, 0, 0, 0] ∧ is (addN 0xFFFF#16 0xFFFF#16 true) false 0xFFFF#16 [1, 1, 1, 0, 1, 0] := by
  decide

/-- Section 4, SUB, SBB, NEG, INC, DEC. -/
theorem test_vectors_sub :
    is (subN 0x00#8 0x01#8 false) false 0xFF#8 [1, 1, 1, 0, 1, 0] ∧ is (subN 0x80#8 0x01#8 false) false 0x7F#8 [0, 0, 1, 0, 0, 1] ∧
    is (subN 0x8000#16 0x0001#16 false) false 0x7FFF#16 [0, 1, 1, 0, 0, 1] ∧ is (subN 0x0000#16 0x8000#16 false) false 0x8000#16 [1, 1, 0, 0, 1, 1] ∧
    is (subN 0x00#8 0xFF#8 true) false 0x00#8 [1, 1, 1, 1, 0, 0] ∧ is (subN 0x80#8 0x7F#8 true) false 0x00#8 [0, 1, 1, 1, 0, 1] ∧
    is (negN 0x80#8) false 0x80#8 [1, 0, 0, 0, 1, 1] ∧ is (negN 0x00#8) false 0x00#8 [0, 1, 0, 1, 0, 0] ∧
    is (incN 0xFF#8) false 0x00#8 [0, 1, 1, 1, 0, 0] ∧ is (incN 0x7FFF#16) true 0x8000#16 [1, 1, 1, 0, 1, 1] ∧
    is (decN 0x00#8) true 0xFF#8 [1, 1, 1, 0, 1, 0] ∧ is (decN 0x8000#16) false 0x7FFF#16 [0, 1, 1, 0, 0, 1] := by decide

/-- A product with CF and OF. -/
def prod {w : Nat} (x : BitVec w × FlagEffect) (r : BitVec w) (c : Bool) : Bool :=
  x.1 == r && x.2.cf == .set c && x.2.of == .set c && x.2.zf == .undef && x.2.af == .undef

/-- Section 4, MUL and IMUL. -/
theorem test_vectors_mul :
    prod (mulN 0x10#8 0x10#8) 0x0100#16 true ∧ prod (mulN 0x0F#8 0x10#8) 0x00F0#16 false ∧ prod (mulN 0xFFFF#16 0xFFFF#16) 0xFFFE0001#32 true ∧
    prod (imulN 0xFF#8 0xFF#8) 0x0001#16 false ∧ prod (imulN 0x80#8 0x80#8) 0x4000#16 true ∧ prod (imulN 0xFE#8 0x40#8) 0xFF80#16 false ∧
    prod (imulN 0x80#8 0xFF#8) 0x0080#16 true ∧ prod (imulN 0xFFFE#16 0x4000#16) 0xFFFF8000#32 false ∧
    prod (imulN 0x0100#16 0x0080#16) 0x00008000#32 true := by decide

/-- Section 4, DIV and IDIV; `none` is the divide error. -/
theorem test_vectors_div :
    divN (w := 8) 0x0064#16 0x07#8 = some (0x0E, 0x02) ∧ divN (w := 8) 0x0100#16 0x01#8 = none ∧ divN (w := 8) 0xFEFF#16 0xFF#8 = some (0xFF, 0xFE) ∧
    divN (w := 8) 0x1234#16 0x00#8 = none ∧ divN (w := 16) 0x00010000#32 0x0002#16 = some (0x8000, 0x0000) ∧
    divN (w := 16) 0xFFFEFFFF#32 0xFFFF#16 = some (0xFFFF, 0xFFFE) ∧ divN (w := 16) 0x00010000#32 0x0001#16 = none ∧
    idivN (w := 8) 0xFFF9#16 0x02#8 = some (0xFD, 0xFF) ∧ idivN (w := 8) 0x0007#16 0xFE#8 = some (0xFD, 0x01) ∧
    idivN (w := 8) 0x0080#16 0x01#8 = none ∧ idivN (w := 8) 0xFF80#16 0x01#8 = none ∧ idivN (w := 8) 0xFF81#16 0x01#8 = some (0x81, 0x00) ∧
    idivN (w := 8) 0x8000#16 0xFF#8 = none ∧ idivN (w := 16) 0xFFFFFF9C#32 0x0007#16 = some (0xFFF2, 0xFFFE) ∧
    idivN (w := 16) 0xFFFF8000#32 0x0001#16 = none ∧ idivN (w := 16) 0xFFFF8001#32 0x0001#16 = some (0x8001, 0x0000) := by decide

/-- A byte result with CF and AF. -/
def adj (x : Byte × FlagEffect) (r : Byte) (cf af : Bool) : Bool := x.1 == r && x.2.cf == .set cf && x.2.af == .set af

/-- Section 4, decimal and ASCII adjust. -/
theorem test_vectors_adjust :
    adj (daaN 0x0F false false) 0x15 false true ∧ adj (daaN 0x9A false false) 0x00 true true ∧ adj (daaN 0x22 true false) 0x82 true false ∧
    adj (daaN 0x99 false false) 0x99 false false ∧ adj (dasN 0x0D false true) 0x07 false true ∧ adj (dasN 0xEE true true) 0x88 true true ∧
    adj (dasN 0xFF false false) 0x99 true true ∧ adj (dasN 0x05 false true) 0xFF true true ∧
    aaaN 0x0F 0x00 false = (0x05, 0x01, asciiFlags true) ∧ aaaN 0x05 0x01 false = (0x05, 0x01, asciiFlags false) ∧
    aaaN 0x0A 0xFF false = (0x00, 0x00, asciiFlags true) ∧ aasN 0x0F 0x01 false = (0x09, 0x00, asciiFlags true) ∧
    aasN 0x00 0x00 true = (0x0A, 0xFF, asciiFlags true) ∧ aamN 0x3F 0x0A = (0x06, 0x03) ∧ aamN 0xFF 0x0A = (0x19, 0x05) ∧
    aadN 0x03 0x06 0x0A = 0x3F ∧ aadN 0xFF 0xFF 0x0A = 0xF5 := by decide

/-- A shifted value with CF, and OF where the count is 1. -/
def sh {w : Nat} (x : BitVec w × FlagEffect) (r : BitVec w) (cf : Bool) (of : FlagChange) : Bool :=
  x.1 == r && x.2.cf == .set cf && x.2.of == of

/-- Section 5, SHL, SHR, SAR. -/
theorem test_vectors_shift :
    sh (shlN 0x80#8 false 1) 0x00 true (.set true) ∧ sh (shlN 0xC0#8 false 1) 0x80 true (.set false) ∧ sh (shlN 0xFF#8 false 8) 0x00 true .undef ∧
    sh (shlN 0xFF#8 false 9) 0x00 false .undef ∧ sh (shlN 0x1234#16 false 4) 0x2340 true .undef ∧ sh (shlN 0x0001#16 false 17) 0x0000 false .undef ∧
    sh (shrN 0x81#8 false 1) 0x40 true (.set true) ∧ sh (shrN 0x80#8 false 8) 0x00 true .undef ∧ sh (shrN 0x8000#16 false 1) 0x4000 false (.set true) ∧
    sh (sarN 0x81#8 false 1) 0xC0 true (.set false) ∧ sh (sarN 0x80#8 false 8) 0xFF true .undef ∧ sh (sarN 0x8000#16 false 4) 0xF800 false .undef := by
  decide

/-- Section 5, ROL, ROR, RCL, RCR. -/
theorem test_vectors_rotate :
    sh (rolN 0x80#8 false 1) 0x01 true (.set true) ∧ sh (rolN 0x81#8 false 8) 0x81 true .undef ∧ sh (rolN 0x1234#16 false 4) 0x2341 true .undef ∧
    sh (rorN 0x02#8 false 1) 0x01 false (.set false) ∧ sh (rorN 0x81#8 false 4) 0x18 false .undef ∧ sh (rorN 0x0001#16 false 1) 0x8000 true (.set true) ∧
    sh (rclN 0x40#8 true 1) 0x81 false (.set true) ∧ sh (rclN 0x81#8 true 4) 0x1C false .undef ∧ sh (rclN 0x1234#16 true 17) 0x1234 true .undef ∧
    sh (rcrN 0x00#8 true 1) 0x80 false (.set true) ∧ sh (rcrN 0x81#8 true 4) 0x38 false .undef ∧ sh (rcrN 0x8000#16 false 2) 0x2000 false .undef := by
  decide

/-- Section 5, count masking: `D3 E0` with CL = 21h and with CL = 20h, at both levels. -/
theorem test_count_masking :
    let s : State := { base with regs := { base.regs with ax := 1, cx := 0x0021 } }
    let u : State := { base with regs := { base.regs with ax := 1, cx := 0x0020 } }
    let lift := fun (x : State) => { x with cfg := { x.cfg with isaLevel := .i80186 } }
    (run [0xD3, 0xE0] s).reg16 .ax = 0 ∧ (run [0xD3, 0xE0] (lift s)).reg16 .ax = 2 ∧ (run [0xD3, 0xE0] (lift s)).flags.of = false ∧
    (run [0xD3, 0xE0] u).reg16 .ax = 0 ∧ (run [0xD3, 0xE0] (lift u)).reg16 .ax = 1 := by decide

/-- Section 1, S4 (`04 01`) and section 5: AND, TEST and NOT. -/
theorem test_add_and_logic :
    let s : State := { base with regs := { base.regs with ax := 0x00FF, bx := 0x3C55 } }
    (run [0x04, 0x01] s).reg16 .ax = 0 ∧ six (run [0x04, 0x01] s).flags = bits [1, 1, 1, 1, 0, 0] ∧
    (run [0x24, 0x3C] s).reg8 .al = 0x3C ∧ (run [0x24, 0x3C] s).flags.pf = true ∧ (run [0xF6, 0xD3] s).reg16 .bx = 0x3CAA ∧
    (run [0xA8, 0x80] s).flags.sf = true ∧ (run [0xA8, 0x80] s).reg16 .ax = 0x00FF ∧ (run [0x3C, 0xFF] s).flags.zf = true := by decide

/-- Section 3: MOV in its forms, LEA, XLAT, LDS, XCHG. -/
theorem test_data_transfer :
    let s : State := put 0x0500 [0x34, 0x12, 0x00, 0x20] { base with regs := { base.regs with ax := 0x1234, bx := 0x1000, si := 0x0010 } }
    (run [0x8A, 0xE0] s).reg16 .ax = 0x3434 ∧ (run [0xA1, 0x00, 0x05] s).reg16 .ax = 0x1234 ∧ (run [0x8D, 0x40, 0x05] s).reg16 .ax = 0x1015 ∧
    (run [0xC5, 0x1E, 0x00, 0x05] s).reg16 .bx = 0x1234 ∧ (run [0xC5, 0x1E, 0x00, 0x05] s).sreg .ds = 0x2000 ∧
    (run [0xC4, 0x3E, 0x00, 0x05] s).sreg .es = 0x2000 ∧ (run [0x86, 0xE0] s).reg16 .ax = 0x3412 ∧ (run [0x93] s).reg16 .bx = 0x1234 ∧
    (run [0x8E, 0xD0] s).sreg .ss = 0x1234 ∧ (run [0x8C, 0xD8] s).reg16 .ax = 0 ∧
    (run [0xC7, 0x06, 0xFF, 0xFF, 0x34, 0x12] { s with sregs := { s.sregs with ds := 0x1000 } }).readByte 0x1000 0 = 0x12 := by decide

/-- Section 3: PUSH SP, POP SP, POP to memory, LAHF, SAHF, PUSHF, POPF, the idle ports. -/
theorem test_stack_flags_ports :
    let s : State := put 0x0100 [0x00, 0x20] { base with ip := 0x0200, regs := { base.regs with sp := 0x0100, ax := 0xFF00 } }
    (run [0x54] s).readWord 0 0x00FE = 0x00FE ∧ (run [0x54] s).reg16 .sp = 0x00FE ∧ (run [0x5C] s).reg16 .sp = 0x2000 ∧
    (run [0x8F, 0x06, 0x00, 0x05] s).readWord 0 0x0500 = 0x2000 ∧ (run [0x9C] s).readWord 0 0x00FE = 0xF002 ∧
    (run [0x9D] (put 0x0100 [0xFF, 0xFF] s)).flags.image = 0xFFD7 ∧ six (run [0x9E] s).flags = bits [1, 1, 1, 1, 1, 0] ∧
    (run [0x9F] { s with flags := { s.flags with cf := true, af := true, zf := true } }).reg8 .ah = 0x53 ∧
    (run [0xE4, 0x60] s).reg8 .al = 0xFF ∧ (run [0xED] s).reg16 .ax = 0xFFFF := by decide

/-- Section 6: MOVSB with REP and overlap, CMPSB under REPE, SCASB, an override that moves the source only. -/
theorem test_strings :
    let s : State := put 0x0600 [0x11, 0x22, 0x33, 0x44] (put 0x0400 [0x11, 0x22, 0x99, 0x44]
      { base with regs := { base.regs with cx := 4, si := 0x0600, di := 0x0400, ax := 0x0099 } })
    (run [0xF3, 0xA6] s).reg16 .cx = 1 ∧ (run [0xF3, 0xA6] s).reg16 .si = 0x0603 ∧ (run [0xF3, 0xA6] s).flags.cf = true ∧
    (run [0xF3, 0xA4] { s with regs := { s.regs with di := 0x0601, cx := 3 } }).readByte 0 0x0603 = 0x11 ∧
    (run [0xF2, 0xAE] s).reg16 .di = 0x0403 ∧ (run [0xF2, 0xAE] s).flags.zf = true ∧ (run [0xF3, 0xAB] s).readWord 0 0x0406 = 0x0099 ∧
    (run [0x26, 0xAC] { s with sregs := { s.sregs with ds := 0x1000 } }).reg8 .al = 0x11 ∧
    (run [0xA5] { s with flags := { s.flags with df := true } }).reg16 .di = 0x03FE ∧ (run [0xF3, 0x90] s).reg16 .cx = 4 := by decide

/-- Section 7: jumps, calls, returns, LOOP, JCXZ, IRET; section 1, S5. -/
theorem test_control :
    let s : State := put 0x1FFA [0x07, 0x01, 0x00, 0x10, 0x02, 0xF2] { base with regs := { base.regs with sp := 0x1FFA, bx := 0x1234, cx := 2 } }
    (run [0xEB, 0xFE] s).ip = 0x0100 ∧ (run [0xE9, 0x00, 0x01] s).ip = 0x0203 ∧ (run [0xFF, 0xE3] s).ip = 0x1234 ∧
    (run [0x74, 0x03] { s with flags := { s.flags with zf := true } }).ip = 0x0105 ∧ (run [0x74, 0x03] s).ip = 0x0102 ∧
    (run [0xE8, 0x04, 0x00] s).readWord 0 0x1FF8 = 0x0103 ∧ (run [0xFF, 0xD4] s).ip = 0x1FFA ∧
    (run [0x9A, 0x00, 0x01, 0x00, 0x20] s).sreg .cs = 0x2000 ∧ (run [0x9A, 0x00, 0x01, 0x00, 0x20] s).readWord 0 0x1FF6 = 0x0105 ∧
    (run [0xCA, 0x02, 0x00] s).reg16 .sp = 0x2000 ∧ (run [0xE2, 0xFC] s).ip = 0x00FE ∧ (run [0xE2, 0xFC] s).reg16 .cx = 1 ∧
    (run [0xE3, 0x10] s).ip = 0x0102 ∧ (run [0xCF] s).ip = 0x0107 ∧ (run [0xCF] s).sreg .cs = 0x1000 ∧ (run [0xCF] s).flags.iflag = true ∧
    (run [0xCF] s).reg16 .sp = 0x2000 := by decide

/-- Section 8: HLT with IF = 0 and IF = 1, the last override wins, LOCK. -/
theorem test_processor_control :
    let s : State := { base with regs := { base.regs with bx := 0x1000 }, sregs := { base.sregs with ds := 0x0100, es := 0x0300 } }
    (run [0xF4] s).driver = .halted ∧ (run [0xF4] s).ip = 0x0101 ∧
    (run [0xF4] { s with pending := some 8, flags := { s.flags with iflag := true } }).driver = .idle ∧
    (run [0x26, 0x26, 0x3E, 0x8B, 0x07] (put 0x2000 [0x55, 0x66] s)).reg16 .ax = 0x6655 ∧
    (run [0x26, 0x26, 0x3E, 0x8B, 0x07] s).ip = 0x0105 ∧ (run [0xF9] s).flags.cf = true ∧ (run [0xFD] s).flags.df = true ∧
    (run [0xFB] s).flags.iflag = true ∧ (run [0xD8, 0x06, 0x00, 0x05] s).ip = 0x0104 := by decide

/-- Section 9: F1 to F6, I1, I4, I5. -/
theorem test_faults_and_interrupts :
    let s : State := { base with regs := { base.regs with ax := 0x0100, bx := 0x0001, sp := 0x0200 } }
    let k : State := { s with cfg := { s.cfg with faultPolicy := .skip } }
    (run [0x0F] s).driver = .fault ∧ (run [0x0F] s).ip = 0x0100 ∧ (run [0x0F] s).diag = [.unrecognizedOpcode 0 0x0100 0x0F] ∧
    (run [0x0F] k).driver = .idle ∧ (run [0x0F] k).ip = 0x0101 ∧ (run [0x26, 0x8D, 0xC0] s).ip = 0x0100 ∧
    (run [0x26, 0x8D, 0xC0] k).ip = 0x0103 ∧ (run [0x26, 0x8D, 0xC0] k).diag = [.decodeFault 0 0x0100 0xC0] ∧
    (run [0xC6, 0xC8, 0x12] k).ip = 0x0102 ∧ (run [0xF6, 0xF3] s).reg16 .ax = 0x0100 ∧ (run [0xF6, 0xF3] s).ip = 0x0102 ∧
    (run [0x90] { s with pending := some 8 }).pending = some 8 ∧
    (run [0x90] { s with pending := some 8, flags := { s.flags with iflag := true } }).pending = none := by decide

/-- Section 9, I2, with the standard handler in slot 0: SP after a divide error, whose FLAGS word is free; the whole frame after
INT 0 (R528). -/
theorem test_guest_vector :
    let s : State := put 0 [0x00, 0x04, 0x00, 0x00] { base with regs := { base.regs with ax := 0x0100, bx := 1, sp := 0x0300 }, intTable := [(0, .guestVector)] }
    (run [0xF6, 0xF3] s).reg16 .sp = 0x02FA ∧ (run [0xCD, 0x00] s).readWord 0 0x02FA = 0x0102 ∧ (run [0xCD, 0x00] s).reg16 .sp = 0x02FA ∧
    (run [0xCD, 0x00] s).readWord 0 0x02FE = 0xF002 ∧ (run [0xCD, 0x00] s).ip = 0x0400 ∧ (run [0xCD, 0x21] s).reg16 .sp = 0x0300 := by decide

/-- The 80186 level (R480 to R492): PUSHA and POPA, ENTER and LEAVE, BOUND at its bounds, IMUL, PUSH imm8, a shift by an
immediate. Expected values by hand from the rules. -/
theorem test_80186 :
    let s : State := put 0x0500 [0xFE, 0xFF, 0x05, 0x00] { base with
      regs := { base.regs with ax := 0x0005, bx := 0xFFFE, sp := 0x0300, bp := 0x0400 }, cfg := { base.cfg with isaLevel := .i80186 } }
    (run [0x60] s).reg16 .sp = 0x02F0 ∧ (run [0x60] s).readWord 0 0x02F6 = 0x0300 ∧ (run [0xC8, 0x10, 0x00, 0x02] s).reg16 .sp = 0x02EA ∧
    (run [0xC8, 0x10, 0x00, 0x02] s).reg16 .bp = 0x02FE ∧ (run [0xC9] s).reg16 .sp = 0x0402 ∧ (run [0x62, 0x06, 0x00, 0x05] s).ip = 0x0104 ∧
    (run [0x62, 0x06, 0x00, 0x05] { s with regs := { s.regs with ax := 6 } }).ip = 0x0100 ∧ (run [0x62, 0x1E, 0x00, 0x05] s).ip = 0x0104 ∧
    (run [0x6B, 0xC3, 0xFF] s).reg16 .ax = 2 ∧ (run [0x69, 0xC3, 0x00, 0x40] s).flags.cf = false ∧ (run [0x6A, 0xFF] s).readWord 0 0x02FE = 0xFFFF ∧
    (run [0xC1, 0xE0, 0x04] s).reg16 .ax = 0x0050 := by decide

/-- Section 2: addresses. -/
theorem test_addresses :
    phys 0xFFFF 0x0010 = 0 ∧ phys 0xFFFF 0xFFFF = 0x0FFEF ∧ phys 0xF000 0xFFFF = 0xFFFFF ∧ phys 0x0041 0x0007 = 0x00417 ∧
    (base.writeWord 0xFFFF 0x000F 0xABCD).readByte 0 0 = 0xAB ∧ (base.writeWord 0xF000 0xFFFF 0xABCD).readByte 0xF000 0 = 0xAB := by decide

/-! ## Witnesses: for every statement with hypotheses, a state and operands that meet them -/

/-- `Obligations.RegisterHalvesAlias`: another register. -/
theorem witness_RegisterHalvesAlias : Reg8.ah ≠ Reg8.al ∧ Reg16.cx ∉ [parent .al] := by decide

/-- `Obligations.WordWriteThenRead`: each clause, at the wrap of the 20-bit address; no address falls under two clauses. -/
theorem witness_WordWriteThenRead :
    phys 0xFFFF 0x000F = phys 0xF000 0xFFFF ∧ phys 0x0000 0x0000 = phys 0xFFFF (0x000F#16 + 1#16) ∧
    phys 0x0000 0x0001 ∉ wordAt 0xFFFF 0x000F ∧ phys 0xFFFF 0x000F ≠ phys 0xFFFF (0x000F#16 + 1#16) := by decide

/-- `Obligations.ModRmNamesItsOperand`: both clauses, at the direct address and at `[BP + disp8]`. -/
theorem witness_ModRmNamesItsOperand :
    modOf 0xC0#8 = 3#2 ∧ modOf 0xFF#8 = 3#2 ∧ modOf 0x06#8 ≠ 3#2 ∧ modOf 0xBF#8 ≠ 3#2 ∧
    decodeRM Reg16.ofBits 0x06#8 (byteAt [0x34, 0x12]) = (.mem (.direct 0x1234), 2) ∧
    decodeRM Reg8.ofBits 0x46#8 (byteAt [0xFE]) = (.mem (.based .bp (.disp8 0xFE)), 1) := by decide

/-- `Obligations.DecodeOfEncode`: an instruction of each level. -/
theorem witness_DecodeOfEncode :
    (Instr.add (.rm16Imm16 (.mem (.based .bp (.disp16 0xFFFF))) 0x1234)).wf .i8086 = true ∧ (Instr.enter 0x0010 0x02).wf .i80186 = true := by
  decide

/-- `Obligations.UnrecognizedBytesAreThese`: a byte on each side, at both levels. -/
theorem witness_UnrecognizedBytesAreThese :
    (dec [0x6F]).1 = .unrecognized 0x6F ∧ (dec [0x70]).1 ≠ .unrecognized 0x70 ∧ (dec186 [0x67]).1 = .unrecognized 0x67 ∧
    (dec186 [0x68]).1 ≠ .unrecognized 0x68 := by decide

/-- A state with code at CS:IP. -/
def code (l : List Byte) (s : State) : State := s.storeBytes (s.sreg .cs) s.ip l

/-- `Obligations.StepRunsDecodedInstruction`: NOP at CS:IP. -/
theorem witness_StepRunsDecodedInstruction :
    ∃ (s t : State) (i : Instr) (n : Nat), s.driver = .idle ∧
      decode s.cfg.isaLevel (fun k => s.readByte (s.sreg .cs) (s.ip + BitVec.ofNat 16 k)) = (i, n) ∧ i.isPrefix = false ∧
      exec i { s with cs0 := s.sreg .cs, ip0 := s.ip, pfx := PrefixState.empty, driver := .dispatch,
                      ip := s.ip + BitVec.ofNat 16 n } = .next t :=
  ⟨code [0x90] base, _, .nop, 1, rfl, by decide, rfl, rfl⟩

/-- `Obligations.PrefixBytesAreCollected`: two prefix bytes in front of MOVSB. -/
theorem witness_PrefixBytesAreCollected :
    ∃ (s t : State) (ps : List Instr) (i : Instr) (n : Nat), s.driver = .idle ∧ ps.length < 65536 ∧ ps.length = 2 ∧
      (∀ p ∈ ps, p.isPrefix = true) ∧
      (∀ k (h : k < ps.length), (decode s.cfg.isaLevel
        (fun j => s.readByte (s.sreg .cs) (s.ip + BitVec.ofNat 16 (k + j)))).1 = ps[k]) ∧
      decode s.cfg.isaLevel (fun j => s.readByte (s.sreg .cs) (s.ip + BitVec.ofNat 16 (ps.length + j))) = (i, n) ∧
      i.isPrefix = false ∧
      exec i { s with cs0 := s.sreg .cs, ip0 := s.ip, pfx := collected ps, driver := .dispatch,
                      ip := s.ip + BitVec.ofNat 16 (ps.length + n) } = .next t :=
  ⟨code [0x26, 0xF3, 0xA4] base, _, [.segEs, .rep], .movsb, 1, rfl, by decide, rfl, by decide,
    by decide,
    by decide, rfl, rfl⟩

/-- What is listed for an address of a full segment. -/
theorem lookup_full (v : Byte) (n : Nat) : ∀ k a, k ≤ a → a < k + n →
    lookup ((List.range' k n).map fun b => (b, v)) a = some v := by
  induction n with
  | zero => intro k a h1 h2; omega
  | succ n ih =>
    intro k a h1 h2
    by_cases h : k = a
    · subst h; simp [List.range'_succ, lookup]
    · simp only [List.range'_succ, List.map_cons, lookup]
      rw [if_neg (by simpa using h)]
      exact ih (k + 1) a (by omega) (by omega)

/-- `Obligations.OnlyEndlessPrefixesStop`: a segment full of ES: bytes. -/
theorem witness_OnlyEndlessPrefixesStop :
    ∃ s : State, s.driver ≠ .fault ∧ s.driver ≠ .halted ∧
      ∀ off : Word, s.readByte (s.sreg .cs) off ∈ [0x26#8, 0x2E#8, 0x36#8, 0x3E#8, 0xF0#8, 0xF2#8, 0xF3#8] := by
  refine ⟨{ base with mem := (List.range' 0 65536).map fun b => (b, 0x26#8) }, by decide, by decide, fun off => ?_⟩
  have h : phys 0#16 off = off.toNat := by
    have := off.isLt
    simp only [phys, BitVec.toNat_ofNat]; omega
  have e : Memory.read ((List.range' 0 65536).map fun b => (b, 0x26#8)) (phys 0#16 off) = 0x26#8 := by
    rw [h, Memory.read, lookup_full _ _ _ _ (Nat.zero_le _) (by have := off.isLt; omega)]; rfl
  show Memory.read ((List.range' 0 65536).map fun b => (b, 0x26#8)) (phys 0#16 off) ∈ _
  rw [e]; decide

/-- `Obligations.FaultedPassAndFaultRows`: each kind of byte, each policy. -/
theorem witness_FaultedPassAndFaultRows :
    let f := fun (s : State) => decode s.cfg.isaLevel (fun k => s.readByte (s.sreg .cs) (s.ip + BitVec.ofNat 16 k))
    base.driver = .idle ∧ base.cfg.faultPolicy = .halt ∧ f (code [0x0F] base) = (.unrecognized 0x0F, 1) ∧
    f (code [0x8D, 0xC0] base) = (.decodeFault 0x8D 0xC0, 2) ∧
    ({ base.cfg with faultPolicy := .skip } : Config).faultPolicy = .skip := by decide

/-- `Obligations.FaultAndHaltedPasses` and `Obligations.EndOfPassOrder`: every clause. -/
theorem witness_FaultAndHaltedPasses :
    ∃ a b c d : State, a.driver = .fault ∧ (b.driver = .halted ∧ b.pending = none) ∧
      (c.driver = .halted ∧ c.flags.iflag = false ∧ c.cfg.hardintGatedByIf = true ∧ c.pending = some 8#8) ∧
      (d.driver = .halted ∧ d.pending = some 8#8 ∧ d.flags.iflag = true) :=
  ⟨{ base with driver := .fault }, { base with driver := .halted }, { base with driver := .halted, pending := some 8#8 },
    { base with driver := .halted, pending := some 8#8, flags := { base.flags with iflag := true } }, rfl, ⟨rfl, rfl⟩,
    ⟨rfl, rfl, rfl, rfl⟩, ⟨rfl, rfl, rfl⟩⟩

theorem witness_EndOfPassOrder :
    ∃ s u : State, (s.driver = .dispatch ∧ s.cfg.tfSingleStep = true ∧ s.pending = some 8#8 ∧ s.flags.iflag = true) ∧
      (u.driver = .halted ∧ u.pending = some 8#8 ∧ u.flags.iflag = false ∧ u.cfg.hardintGatedByIf = true) :=
  ⟨{ base with driver := .dispatch, cfg := { base.cfg with tfSingleStep := true }, pending := some 8#8
               flags := { base.flags with iflag := true } },
    { base with driver := .halted, pending := some 8#8 }, ⟨rfl, rfl, rfl, rfl⟩, ⟨rfl, rfl, rfl, rfl⟩⟩

/-- `Obligations.GuestVectorEntry`, `Obligations.InterruptReturn`, `Obligations.SoftwareInterrupts`,
`Obligations.DivideErrorEntry`: a slot with the standard handler, at both ends of the table, a slot with none, and a slot with
a handler of the environment, with and without `STRICT_DIAG`. -/
theorem witness_slots :
    let s : State := { base with intTable := [(0, .guestVector), (33, .host 7), (255, .guestVector)] }
    lookup s.intTable (0x00#8).toNat = some .guestVector ∧ lookup s.intTable (0xFF#8).toNat = some .guestVector ∧
    lookup s.intTable (0x21#8).toNat = some (.host 7) ∧ s.cfg.strictDiag = false ∧
    lookup s.intTable (0x22#8).toNat = none ∧ lookup base.intTable 0 = none ∧ base.cfg.strictDiag = false ∧
    base.flags.of = false ∧ ({ base.cfg with strictDiag := true } : Config).strictDiag = true ∧
    ({ base.flags with of := true } : Flags).of = true := by decide

/-- `Obligations.InvariantKeptByStep`: a state with the invariant that steps. -/
theorem witness_InvariantKeptByStep :
    ∃ s t : State, (Memory.wf s.mem ∧ s.driver = .idle ∧ s.pfx = PrefixState.empty) ∧ s.Inv ∧ step s = .next t :=
  ⟨code [0x90] base, _, ⟨by decide, rfl, rfl⟩, by decide, rfl⟩

/-- `Obligations.StepKeepsTablesAndLog`: a step that records a fault, and one that calls a handler of the environment. -/
theorem witness_StepKeepsTablesAndLog :
    (∃ t, step (code [0x0F] base) = .next t) ∧
    ∃ t, step (code [0xCD, 0x21] { base with intTable := [(33, .host 7)] }) = .next t :=
  ⟨⟨_, rfl⟩, _, rfl⟩

/-- `Obligations.EveryInstructionCompletes`: a state with no handler of the environment, and an instruction that is no fault
row. -/
theorem witness_EveryInstructionCompletes :
    ({ base with intTable := [(0, .guestVector)], portTable := [(0x60, ⟨none, none⟩)] } : State).noHostHandlers ∧
    (∀ op, Instr.nop ≠ .unrecognized op) ∧ ∀ op m, Instr.nop ≠ .decodeFault op m := by
  refine ⟨⟨?_, ?_⟩, fun _ h => Instr.noConfusion h, fun _ _ h => Instr.noConfusion h⟩ <;> intro e he <;>
    simp only [List.mem_singleton] at he <;> subst he <;> rfl

/-- `Obligations.PushStoresOneWord`, `Obligations.PopLoadsOneWord`, `Obligations.XchgSwaps`: a register that is not the one
the clause shuts out, and operands of both kinds. -/
theorem witness_registers :
    Reg16.ax ≠ .sp ∧ (RM.reg Reg16.ax : RM16) ≠ .reg .sp ∧ Reg8.bl ≠ .al ∧ (RM.reg Reg8.ah : RM8) ≠ .reg .bl ∧
    Reg16.bx ≠ .ax ∧ (RM.mem (.direct 0) : RM16) ≠ .reg .bx := by decide

/-- `Obligations.PortAccess`: a port with both handlers, and ports at the ends of the space with none. -/
theorem witness_PortAccess :
    let s : State := { base with portTable := [(0x60, ⟨some 1, some 2⟩)] }
    s.readHandler 0x60 = some 1 ∧ s.writeHandler 0x60 = some 2 ∧ s.readHandler 0 = none ∧ s.readHandler 0xFFFF = none ∧
    s.writeHandler 0xFFFF = none := by decide

/-- `Obligations.DivQuotientOrError`: each clause, at its boundary. -/
theorem witness_DivQuotientOrError :
    let s : State := { base with regs := { base.regs with ax := 0x00FF, bx := 0x0001 } }
    let u : State := { base with regs := { base.regs with ax := 0x0100, dx := 0x0001, bx := 0x0001 } }
    (s.readRM8 (.reg .bl) ≠ 0#8 ∧ (s.reg16 .ax).toNat / (s.readRM8 (.reg .bl)).toNat ≤ 255) ∧
    255 < (u.reg16 .ax).toNat / (u.readRM8 (.reg .bl)).toNat ∧ s.readRM8 (.reg .bh) = 0#8 ∧
    (s.readRM16 (.reg .bx) ≠ 0#16 ∧ (s.reg16 .dx ++ s.reg16 .ax).toNat / (s.readRM16 (.reg .bx)).toNat ≤ 65535) ∧
    65535 < (u.reg16 .dx ++ u.reg16 .ax).toNat / (u.readRM16 (.reg .bx)).toNat ∧ s.readRM16 (.reg .cx) = 0#16 := by decide

/-- `Obligations.IdivQuotientOrError`: each clause, at its boundary, -127 and -128. -/
theorem witness_IdivQuotientOrError :
    let s : State := { base with regs := { base.regs with ax := 0xFF81, dx := 0xFFFF, bx := 0x0001 } }
    let u : State := { base with regs := { base.regs with ax := 0xFF80, dx := 0xFFFF, bx := 0x0001 } }
    let v : State := { base with regs := { base.regs with ax := 0x8000, dx := 0xFFFF, bx := 0x0001 } }
    (s.readRM8 (.reg .bl) ≠ 0#8 ∧ ((s.reg16 .ax).toInt.tdiv (s.readRM8 (.reg .bl)).toInt).natAbs ≤ 127) ∧
    127 < ((u.reg16 .ax).toInt.tdiv (u.readRM8 (.reg .bl)).toInt).natAbs ∧ s.readRM8 (.reg .bh) = 0#8 ∧
    (s.readRM16 (.reg .bx) ≠ 0#16 ∧ ((s.reg16 .dx ++ s.reg16 .ax).toInt.tdiv (s.readRM16 (.reg .bx)).toInt).natAbs ≤ 32767) ∧
    32767 < ((v.reg16 .dx ++ v.reg16 .ax).toInt.tdiv (v.readRM16 (.reg .bx)).toInt).natAbs ∧ s.readRM16 (.reg .cx) = 0#16 := by
  decide

/-- `Obligations.DecimalAndAsciiAdjust` and `Obligations.AamAadCbwCwd`: each case of AL, AF and CF at its boundary. -/
theorem witness_DecimalAndAsciiAdjust :
    let f := fun (al : Byte) => (decide (9 < al.toNat % 16), decide (0x99 < al.toNat))
    f 0x9A = (true, true) ∧ f 0x0A = (true, false) ∧ f 0xA0 = (false, true) ∧ f 0x99 = (false, false) ∧ (0x0A#8 : Byte) ≠ 0#8 := by
  decide

/-- The closed forms of the shifts and rotates: a count of 0, of 1 and of more, in CL and in an immediate. -/
theorem witness_shift_counts :
    let s : State := { base with regs := { base.regs with cx := 0x0021 } }
    countOf s.cfg.isaLevel (s.reg8 .cl) = 33 ∧ countOf .i80186 (s.reg8 .cl) = 1 ∧ countOf .i80186 0x20 = 0 ∧
    countOf base.cfg.isaLevel (base.reg8 .cl) = 0 ∧ (0xFF#8 &&& 0x1F#8).toNat = 31 ∧ (0x20#8 &&& 0x1F#8).toNat = 0 := by decide

/-- The string statements: no repeat prefix; a port with no handler; a repeat prefix with CX = 0 and not, and a compare that
ends it and one that does not. -/
theorem witness_strings :
    let s : State := { base with pfx := ⟨none, some .repe, false⟩, regs := { base.regs with cx := 1, ax := 0x0001 } }
    base.pfx.rep = none ∧ base.cfg.strictDiag = false ∧ base.readHandler (base.reg16 .dx) = none ∧
    base.writeHandler (base.reg16 .dx) = none ∧ s.pfx.rep = some .repe ∧ s.reg16 .cx ≠ 0#16 ∧ base.reg16 .cx = 0#16 ∧
    ((scasbBody s).setReg16 .cx (s.reg16 .cx - 1#16)).flags.zf = false ∧
    ((scasbBody { s with regs := { s.regs with ax := 0 } }).setReg16 .cx (s.reg16 .cx - 1#16)).flags.zf = true ∧
    s.flags.df = false := by decide

/-- `Obligations.RepneScasbFindsFirst`: a byte found at the last place, and no byte found. -/
theorem witness_RepneScasbFindsFirst :
    let s : State := put 0x0500 [0x41, 0x00] { base with
      pfx := ⟨none, some .repne, false⟩, regs := { base.regs with cx := 2, di := 0x0500 } }
    let u : State := put 0x0500 [0x41, 0x42] { base with
      pfx := ⟨none, some .repne, false⟩, regs := { base.regs with cx := 2, di := 0x0500 } }
    s.pfx.rep = some .repne ∧ s.flags.df = false ∧ 1 < (s.reg16 .cx).toNat ∧
    s.readByte (s.sreg .es) (s.reg16 .di + BitVec.ofNat 16 0) ≠ s.reg8 .al ∧
    s.readByte (s.sreg .es) (s.reg16 .di + BitVec.ofNat 16 1) = s.reg8 .al ∧ u.pfx.rep = some .repne ∧
    (∀ i, i < 2 → u.readByte (u.sreg .es) (u.reg16 .di + BitVec.ofNat 16 i) ≠ u.reg8 .al) ∧ u.reg16 .cx ≠ 0#16 := by decide

/-- `Obligations.ReturnsAndCallsPair`: a call that completes, near and far. -/
theorem witness_ReturnsAndCallsPair :
    (∃ t, exec (.callNear 4#16) base = .next t) ∧ ∃ t, exec (.callFar 4#16 5#16) base = .next t := ⟨⟨_, rfl⟩, ⟨_, rfl⟩⟩

/-- `Obligations.BoundChecksIndex`: bounds -2 and 5, an index at each and just outside each. -/
theorem witness_BoundChecksIndex :
    let s : State := put 0x0500 [0xFE, 0xFF, 0x05, 0x00] { base with regs := ⟨0xFFFE, 0x0005, 0xFFFD, 0x0006, 0, 0, 0, 0⟩ }
    let m := MemOp.direct 0x0500
    let lo := (s.readWord (s.memSeg m) (s.ea m)).toInt
    let hi := (s.readWord (s.memSeg m) (s.ea m + 2#16)).toInt
    (lo ≤ (s.reg16 .ax).toInt ∧ (s.reg16 .ax).toInt ≤ hi) ∧ (lo ≤ (s.reg16 .cx).toInt ∧ (s.reg16 .cx).toInt ≤ hi) ∧
    (s.reg16 .dx).toInt < lo ∧ hi < (s.reg16 .bx).toInt := by decide

/-- `Obligations.EnterAndLeaveFrames`: level 2, its one copied frame pointer read outside the new frame; ENTER with level 0. -/
theorem witness_EnterAndLeaveFrames :
    let s : State := { base with regs := { base.regs with sp := 0x0300, bp := 0x0400 } }
    let level : Byte := 0x02
    (level &&& 0x1F#8) ≠ 0#8 ∧ 1 < (level &&& 0x1F#8).toNat ∧
    (∀ a ∈ wordAt (s.sreg .ss) (s.reg16 .bp - BitVec.ofNat 16 (2 * 1)), ∀ i, i ≤ (level &&& 0x1F#8).toNat →
      a ∉ wordAt (s.sreg .ss) (s.reg16 .sp - 2#16 - BitVec.ofNat 16 (2 * i))) := by decide

theorem witness_EnterAndLeaveFrames_level0 : ∃ t, exec (.enter 0x10#16 0#8) base = .next t := ⟨_, rfl⟩

end Sys2Proof.Tests
end

section
/-! PROOFS. Operations that no instruction can do harm with (`Benign`): they keep what `Kept` says and are blind to the pending
slot (R34) where no handler of the environment is installed. One lemma for each shape that instructions share. -/

namespace Sys2Proof.Machine

open Sys2Proof

/-! ## What changes registers, IP and flags only -/

/-- An operation on registers, IP and flags alone keeps the rest. -/
theorem Kept.of_registers {s t : State}
    (h : t = { s with regs := t.regs, sregs := t.sregs, ip := t.ip, flags := t.flags }) : Kept s t := by
  rw [h]
  exact ⟨rfl, rfl, rfl, rfl, rfl, rfl, rfl, List.prefix_refl _, rfl, Nat.le_refl _, id⟩

/-! ## Benign operations -/

/-- An operation keeps what `Kept` says, and is blind to the pending slot where no handler of the environment is installed. -/
structure Benign (f : State → State) : Prop where
  kept  : ∀ s, Kept s (f s)
  blind : SlotBlind State.noHostHandlers f

/-- Blindness in all states is blindness in the states of any predicate. -/
theorem SlotBlind.of_true {P : State → Prop} {f : State → State} (h : SlotBlind (fun _ => True) f) : SlotBlind P f :=
  fun s p _ => h s p trivial

/-- An operation on registers, IP and flags alone whose result on a state with another slot is that of the state by unfolding. -/
theorem Benign.of_registers {f : State → State}
    (h : ∀ s, f s = { s with regs := (f s).regs, sregs := (f s).sregs, ip := (f s).ip, flags := (f s).flags })
    (b : ∀ s p, f { s with pending := p } = { f s with pending := p }) : Benign f :=
  ⟨fun s => .of_registers (h s), fun s p _ => b s p⟩

theorem Benign.id : Benign fun s => s := .of_registers (fun _ => rfl) fun _ _ => rfl

/-- One benign operation after another: the first installs no handler. -/
theorem Benign.then {f g : State → State} (hf : Benign f) (hg : Benign g) : Benign fun s => g (f s) where
  kept s := (hf.kept s).trans (hg.kept _)
  blind s p h := by
    show g (f { s with pending := p }) = _
    rw [hf.blind s p h, hg.blind (f s) p (h.of_kept (hf.kept s))]

/-- A choice that does not look at the slot. -/
theorem Benign.ite {c : State → Prop} [DecidablePred c] {f g : State → State}
    (hc : ∀ s p, c { s with pending := p } ↔ c s) (hf : Benign f) (hg : Benign g) :
    Benign fun s => if c s then f s else g s where
  kept s := by
    split
    · exact hf.kept s
    · exact hg.kept s
  blind s p h := by
    simp only [hc]
    split
    · exact hf.blind s p h
    · exact hg.blind s p h

/-- A value that does not depend on the pending slot. -/
abbrev SlotFree {α : Type} (v : State → α) : Prop := ∀ (s : State) (p : Option Byte), v { s with pending := p } = v s

theorem SlotFree.pair {α β : Type} {v : State → α} {w : State → β} (hv : SlotFree v) (hw : SlotFree w) :
    SlotFree fun s => (v s, w s) := fun s p => Prod.ext (hv s p) (hw s p)

/-- An operation benign for every argument is so for an argument that the state gives without its slot. -/
theorem Benign.applied {α : Type} {g : α → State → State} {v : State → α} (h : ∀ a, Benign (g a)) (hv : SlotFree v) :
    Benign fun s => g (v s) s where
  kept s := (h _).kept s
  blind s p hs := by
    show g (v { s with pending := p }) { s with pending := p } = _
    rw [hv, (h _).blind s p hs]

/-! ## The shapes that instructions share

Each is stated for arguments that the state gives without its slot. -/

/-- A value written to a byte operand (R166). -/
theorem benign_writeOp8 {v : State → Byte} (x : RM8) (hv : SlotFree v) : Benign fun s => s.writeOp8 (s.resolve x) (v s) :=
  .applied (g := fun b s => s.writeOp8 (s.resolve x) b)
    (fun b => ⟨fun _ => kept_writeOp8 _ _ _, fun s p _ => slotBlind_writeOp8 (s.resolve x) b s p trivial⟩) hv

/-- A value written to a word operand (R166). -/
theorem benign_writeOp16 {v : State → Word} (x : RM16) (hv : SlotFree v) : Benign fun s => s.writeOp16 (s.resolve x) (v s) :=
  .applied (g := fun b s => s.writeOp16 (s.resolve x) b)
    (fun b => ⟨fun _ => kept_writeOp16 _ _ _, fun s p _ => slotBlind_writeOp16 (s.resolve x) b s p trivial⟩) hv

theorem benign_alu (f : AluFn) (g : AluForm) : Benign (·.alu f g) :=
  ⟨fun s => kept_alu s f g, (slotBlind_alu f g).of_true⟩

theorem benign_aluDiscard (f : AluFn) (g : AluForm) : Benign (·.aluDiscard f g) :=
  ⟨fun s => kept_aluDiscard s f g, (slotBlind_aluDiscard f g).of_true⟩

theorem benign_unary (f : UnFn) (g : UnaryForm) : Benign (·.unary f g) :=
  ⟨fun s => kept_unary s f g, (slotBlind_unary f g).of_true⟩

theorem benign_incDec (f : UnFn) (g : IncForm) : Benign (·.incDec f g) :=
  ⟨fun s => kept_incDec s f g, (slotBlind_incDec f g).of_true⟩

theorem benign_shift (f : ShiftFn) (g : ShiftForm) : Benign (·.shift f g) :=
  ⟨fun s => kept_shift s f g, (slotBlind_shift f g).of_true⟩

theorem benign_raiseInterrupt (n : Byte) : Benign (·.raiseInterrupt n) :=
  ⟨fun s => kept_raiseInterrupt s n, slotBlind_raiseInterrupt n⟩

theorem benign_divideError : Benign State.divideError := ⟨kept_divideError, slotBlind_divideError⟩

/-- A word pushed (R175). -/
theorem benign_push16 {v : State → Word} (hv : SlotFree v) : Benign fun s => s.push16 (v s) :=
  .applied (g := fun b s => s.push16 b) (fun _ => ⟨fun _ => kept_push16 _ _, fun _ _ _ => rfl⟩) hv

/-- A near call: a word pushed, then a jump (R396, R397). -/
theorem benign_callTo {v : State → Word} (hv : SlotFree v) : Benign fun s => (s.push16 s.ip).setIp (v s) :=
  .applied (g := fun b s => (s.push16 s.ip).setIp b)
    (fun _ => ⟨fun _ => (kept_push16 _ _).trans (kept_setIp _ _), fun _ _ _ => rfl⟩) hv

/-- A far call: two words pushed, then a far jump (R398, R399). -/
theorem benign_callFarTo {sg off : State → Word} (hs : SlotFree sg) (ho : SlotFree off) :
    Benign fun s => s.callFarTo (sg s) (off s) :=
  .applied (g := fun (b : Word × Word) s => s.callFarTo b.1 b.2)
    (fun _ => ⟨fun _ => (kept_push16 _ _).trans <| (kept_push16 _ _).trans (.of_registers rfl), fun _ _ _ => rfl⟩)
    (hs.pair ho)

/-- A jump on a condition (R404). -/
theorem benign_jumpIf {c : State → Bool} (d : Byte) (hc : SlotFree c) : Benign fun s => s.jumpIf (c s) d :=
  .applied (g := fun b s => s.jumpIf b d) (fun b => ⟨fun _ => by
    cases b with
    | true => exact kept_setIp _ _
    | false => exact Kept.refl _, (slotBlind_jumpIf b d).of_true⟩) hc

theorem benign_decCx : Benign State.decCx := .of_registers (fun _ => rfl) fun _ _ => rfl

/-- The general registers, then the status flags. -/
theorem benign_regsThenFlags {g : State → Regs} {e : State → FlagEffect} (hg : SlotFree g) (he : SlotFree e) :
    Benign fun s => ({ s with regs := g s } : State).applyFlags (e s) :=
  .applied (g := fun (b : Regs × FlagEffect) s => ({ s with regs := b.1 } : State).applyFlags b.2)
    (fun _ => ⟨fun _ => Kept.trans (.of_registers rfl) (kept_applyFlags _ _), fun _ _ _ => rfl⟩) (hg.pair he)

/-- The end of a byte divide (R280, R281). -/
theorem benign_finishDiv8 {q : State → Option (Byte × Byte)} (hq : SlotFree q) : Benign fun s => s.finishDiv8 (q s) :=
  .applied (g := fun b s => s.finishDiv8 b) (fun b => ⟨fun _ => by
    cases b with
    | none => exact kept_divideError _
    | some => exact Kept.trans (.of_registers rfl) (kept_applyFlags _ _), slotBlind_finishDiv8 b⟩) hq

/-- The end of a word divide (R280, R281). -/
theorem benign_finishDiv16 {q : State → Option (Word × Word)} (hq : SlotFree q) : Benign fun s => s.finishDiv16 (q s) :=
  .applied (g := fun b s => s.finishDiv16 b) (fun b => ⟨fun _ => by
    cases b with
    | none => exact kept_divideError _
    | some => exact Kept.trans (.of_registers rfl) (kept_applyFlags _ _), slotBlind_finishDiv16 b⟩) hq

/-- The frame pointers that ENTER copies (R491). -/
theorem benign_enterLoop (n : Nat) : Benign (enterLoop n) := by
  induction n with
  | zero => exact .id
  | succ n ih =>
    have copyOne : Benign fun s => (s.setReg16 .bp (s.reg16 .bp - 2#16)).push16
        ((s.setReg16 .bp (s.reg16 .bp - 2#16)).readWord (s.sreg .ss) (s.reg16 .bp - 2#16)) :=
      ⟨fun _ => (kept_setReg16 _ _ _).trans (kept_push16 _ _), fun _ _ _ => rfl⟩
    exact copyOne.then ih

/-! ## Ports and strings -/

theorem benign_inByte {port : State → Word} (hp : SlotFree port) : Benign fun s => s.inByte (port s) :=
  .applied (g := fun b s => s.inByte b)
    (fun b => ⟨fun _ => (kept_portIn8 _ _).trans (kept_setReg8 _ _ _), slotBlind_inByte b⟩) hp

theorem benign_inWord {port : State → Word} (hp : SlotFree port) : Benign fun s => s.inWord (port s) :=
  .applied (g := fun b s => s.inWord b)
    (fun b => ⟨fun _ => (kept_portIn16 _ _).trans (kept_setReg16 _ _ _), slotBlind_inWord b⟩) hp

theorem benign_portOut8 {port : State → Word} {v : State → Byte} (hp : SlotFree port) (hv : SlotFree v) :
    Benign fun s => s.portOut8 (port s) (v s) :=
  .applied (g := fun (b : Word × Byte) s => s.portOut8 b.1 b.2)
    (fun b => ⟨fun _ => kept_portOut8 _ _ _, slotBlind_portOut8 b.1 b.2⟩) (hp.pair hv)

theorem benign_portOut16 {port v : State → Word} (hp : SlotFree port) (hv : SlotFree v) :
    Benign fun s => s.portOut16 (port s) (v s) :=
  .applied (g := fun (b : Word × Word) s => s.portOut16 b.1 b.2)
    (fun b => ⟨fun _ => kept_portOut16 _ _ _, slotBlind_portOut16 b.1 b.2⟩) (hp.pair hv)

/-- A string instruction is as benign as its body (R361). -/
theorem Benign.stringOp {body : State → State} (h : Benign body) (c : Bool) : Benign (·.stringOp c body) where
  kept s := kept_stringOp s c h.kept
  blind := slotBlind_stringOp c h.blind fun s hs => hs.of_kept ((h.then benign_decCx).kept s)

theorem benign_movsbBody : Benign movsbBody :=
  ⟨fun _ => (kept_writeByte _ _ _ _).trans (.of_registers rfl), fun _ _ _ => rfl⟩

theorem benign_movswBody : Benign movswBody :=
  ⟨fun _ => (kept_writeWord _ _ _ _).trans (.of_registers rfl), fun _ _ _ => rfl⟩

theorem benign_cmpsbBody : Benign cmpsbBody :=
  ⟨fun _ => (kept_applyFlags _ _).trans (.of_registers rfl), fun _ _ _ => rfl⟩

theorem benign_cmpswBody : Benign cmpswBody :=
  ⟨fun _ => (kept_applyFlags _ _).trans (.of_registers rfl), fun _ _ _ => rfl⟩

theorem benign_scasbBody : Benign scasbBody :=
  ⟨fun _ => (kept_applyFlags _ _).trans (.of_registers rfl), fun _ _ _ => rfl⟩

theorem benign_scaswBody : Benign scaswBody :=
  ⟨fun _ => (kept_applyFlags _ _).trans (.of_registers rfl), fun _ _ _ => rfl⟩

theorem benign_lodsbBody : Benign lodsbBody := .of_registers (fun _ => rfl) fun _ _ => rfl

theorem benign_lodswBody : Benign lodswBody := .of_registers (fun _ => rfl) fun _ _ => rfl

theorem benign_stosbBody : Benign stosbBody :=
  ⟨fun _ => (kept_writeByte _ _ _ _).trans (.of_registers rfl), fun _ _ _ => rfl⟩

theorem benign_stoswBody : Benign stoswBody :=
  ⟨fun _ => (kept_writeWord _ _ _ _).trans (.of_registers rfl), fun _ _ _ => rfl⟩

theorem benign_insbBody : Benign insbBody :=
  ⟨fun _ => (kept_portIn8 _ _).trans <| (kept_writeByte _ _ _ _).trans (.of_registers rfl), slotBlind_insbBody⟩

theorem benign_inswBody : Benign inswBody :=
  ⟨fun _ => (kept_portIn16 _ _).trans <| (kept_writeWord _ _ _ _).trans (.of_registers rfl), slotBlind_inswBody⟩

theorem benign_outsbBody : Benign outsbBody :=
  ⟨fun _ => (kept_portOut8 _ _ _).trans (.of_registers rfl), slotBlind_outsbBody⟩

theorem benign_outswBody : Benign outswBody :=
  ⟨fun _ => (kept_portOut16 _ _ _).trans (.of_registers rfl), slotBlind_outswBody⟩

end Sys2Proof.Machine
end

section
/-! PROOFS. Every instruction completes (`Completes`), with what each of them leaves unchanged, the fault rows and HLT and the
prefix bytes included (`Upheld`). -/

namespace Sys2Proof.Machine

open Sys2Proof

/-! ## What every instruction and every step upholds -/

/-- What holds after a step if it held before: the tables and the parameters are as they were, no record is lost, no free
value is used again, memory stays in canonical form, and Fault is entered only under `FAULT_POLICY = halt` (R151). -/
structure Upheld (s t : State) : Prop where
  intTable  : t.intTable = s.intTable
  portTable : t.portTable = s.portTable
  cfg       : t.cfg = s.cfg
  diag      : s.diag <+: t.diag
  draws     : s.draws ≤ t.draws
  memWf     : Memory.wf s.mem → Memory.wf t.mem
  fault     : t.driver = .fault → s.driver = .fault ∨ s.cfg.faultPolicy = .halt

theorem Kept.upheld {s t : State} (h : Kept s t) : Upheld s t :=
  ⟨h.intTable, h.portTable, h.cfg, h.diag, h.draws, h.memWf, fun e => .inl (h.driver ▸ e)⟩

theorem Upheld.refl (s : State) : Upheld s s := (Kept.refl s).upheld

theorem Upheld.trans {s t u : State} (h : Upheld s t) (k : Upheld t u) : Upheld s u where
  intTable := k.intTable.trans h.intTable
  portTable := k.portTable.trans h.portTable
  cfg := k.cfg.trans h.cfg
  diag := h.diag.trans k.diag
  draws := h.draws.trans k.draws
  memWf w := k.memWf (h.memWf w)
  fault e := (k.fault e).elim h.fault fun hp => .inr (h.cfg ▸ hp)

/-- Prefix State and a driver state other than Fault, the recorded CS and IP0 too, may be set at will. -/
theorem upheld_setControl (s : State) {x : PrefixState} {d : Driver} {c i : Word} (hd : d ≠ .fault) :
    Upheld s { s with pfx := x, driver := d, cs0 := c, ip0 := i } :=
  ⟨rfl, rfl, rfl, List.prefix_refl _, Nat.le_refl _, id, fun e => absurd e hd⟩

/-- Prefix State alone may be set in any driver state. -/
theorem upheld_setPfx (s : State) (x : PrefixState) : Upheld s { s with pfx := x } :=
  ⟨rfl, rfl, rfl, List.prefix_refl _, Nat.le_refl _, id, .inl⟩

/-- The driver's fault sequence (R150, R151). -/
theorem upheld_takeFault (s : State) (r : DiagRecord) : Upheld s (s.takeFault r) := by
  unfold State.takeFault
  split
  · next hp => exact ⟨rfl, rfl, rfl, List.prefix_append _ _, Nat.le_refl _, id, fun _ => .inr hp⟩
  · exact ⟨rfl, rfl, rfl, List.prefix_append _ _, Nat.le_refl _, id, fun e => nomatch e⟩

/-! ## An instruction that completes -/

/-- A row that is no fault row (R121, R123). -/
abbrev NotFaultRow (i : Instr) : Prop := (∀ op, i ≠ .unrecognized op) ∧ ∀ op m, i ≠ .decodeFault op m

/-- An operation records no fault and does not enter Fault (R38, R149). -/
structure NoFault (s t : State) : Prop where
  faults : t.diag.filter DiagRecord.isFault = s.diag.filter DiagRecord.isFault
  driver : t.driver = .fault → s.driver = .fault

/-- In every state the instruction answers the next state that `f` gives, blind to the pending slot (R34) where no handler of
the environment is installed; the recorded CS and IP0 stay, and it records no fault but where it is a fault row. -/
structure CompletesAs (i : Instr) (f : State → State) : Prop where
  run     : ∀ s, exec i s = .next (f s)
  blind   : SlotBlind State.noHostHandlers f
  upheld  : ∀ s, Upheld s (f s)
  cs0     : ∀ s, (f s).cs0 = s.cs0
  ip0     : ∀ s, (f s).ip0 = s.ip0
  noFault : NotFaultRow i → ∀ s, NoFault s (f s)

/-- An instruction completes. -/
abbrev Completes (i : Instr) : Prop := ∃ f, CompletesAs i f

/-- One that does a benign operation. -/
theorem completes_of_benign {i : Instr} {f : State → State} (run : ∀ s, exec i s = .next (f s)) (h : Benign f) :
    Completes i :=
  ⟨f, run, h.blind, fun s => (h.kept s).upheld, fun s => (h.kept s).cs0, fun s => (h.kept s).ip0,
    fun _ s => ⟨(h.kept s).faults, fun e => (h.kept s).driver ▸ e⟩⟩

/-- One that changes registers, IP and flags only. -/
theorem completes_of_registers {i : Instr} {f : State → State} (run : ∀ s, exec i s = .next (f s))
    (h : ∀ s, f s = { s with regs := (f s).regs, sregs := (f s).sregs, ip := (f s).ip, flags := (f s).flags })
    (b : ∀ s p, f { s with pending := p } = { f s with pending := p }) : Completes i :=
  completes_of_benign run (.of_registers h b)

/-- One that jumps on a condition (R404). -/
theorem completes_of_jumpIf {i : Instr} {c : State → Bool} {d : Byte} (run : ∀ s, exec i s = .next (s.jumpIf (c s) d))
    (hc : SlotFree c) : Completes i :=
  completes_of_benign run (benign_jumpIf d hc)

/-- One that counts CX down and jumps on a condition (R421 to R423). -/
theorem completes_of_loop {i : Instr} {c : State → Bool} {d : Byte}
    (run : ∀ s, exec i s = .next (s.decCx.jumpIf (c s.decCx) d)) (hc : SlotFree c) : Completes i :=
  completes_of_benign run (benign_decCx.then (benign_jumpIf d hc))

/-- HLT only sets the driver state (R457). -/
theorem completes_hlt : Completes .hlt :=
  ⟨fun s => { s with driver := .halted }, fun _ => rfl, fun _ _ _ => rfl,
    fun s => upheld_setControl s (by decide), fun _ => rfl, fun _ => rfl,
    fun _ _ => ⟨rfl, fun e => nomatch e⟩⟩

/-- A prefix byte, which only records in Prefix State (R104). -/
theorem completes_of_prefix {i : Instr} {f : State → State} (run : ∀ s, exec i s = .next (f s))
    (h : ∀ s, f s = { s with pfx := (f s).pfx }) (b : SlotBlind State.noHostHandlers f) : Completes i := by
  refine ⟨f, run, b, fun s => ?_, fun s => ?_, fun s => ?_, fun _ s => ?_⟩ <;> rw [h s]
  · exact upheld_setPfx s _
  · exact ⟨rfl, id⟩

/-- A fault row: its record depends on what the driver recorded and on its byte (R150, R151). -/
theorem completes_of_takeFault {i : Instr} {r : State → DiagRecord} (run : ∀ s, exec i s = .next (s.takeFault (r s)))
    (hr : SlotFree r) (hi : ¬ NotFaultRow i) : Completes i := by
  refine ⟨_, run, fun s p _ => ?_, fun s => upheld_takeFault s _, fun s => ?_, fun s => ?_, fun h => absurd h hi⟩ <;>
    simp only [State.takeFault, hr s] <;> split <;> rfl

/-! ## The instructions with several forms -/

theorem completes_movRmReg (f : MovForm) : Completes (.movRmReg f) := by
  cases f with
  | rm8Reg8 x r => exact completes_of_benign (fun _ => rfl) (benign_writeOp8 x fun _ _ => rfl)
  | rm16Reg16 x r => exact completes_of_benign (fun _ => rfl) (benign_writeOp16 x fun _ _ => rfl)
  | reg8Rm8 r x => exact completes_of_registers (fun _ => rfl) (fun _ => rfl) fun _ _ => rfl
  | reg16Rm16 r x => exact completes_of_registers (fun _ => rfl) (fun _ => rfl) fun _ _ => rfl

theorem completes_movRmImm (f : RmImmForm) : Completes (.movRmImm f) := by
  cases f with
  | rm8Imm8 x i => exact completes_of_benign (fun _ => rfl) (benign_writeOp8 x fun _ _ => rfl)
  | rm16Imm16 x i => exact completes_of_benign (fun _ => rfl) (benign_writeOp16 x fun _ _ => rfl)

theorem completes_movRegImm (f : RegImmForm) : Completes (.movRegImm f) := by
  cases f with
  | reg8Imm8 r i => exact completes_of_registers (fun _ => rfl) (fun _ => rfl) fun _ _ => rfl
  | reg16Imm16 r i => exact completes_of_registers (fun _ => rfl) (fun _ => rfl) fun _ _ => rfl

theorem completes_movMoffs (f : MoffsForm) : Completes (.movMoffs f) := by
  cases f with
  | alMoffs off => exact completes_of_registers (fun _ => rfl) (fun _ => rfl) fun _ _ => rfl
  | axMoffs off => exact completes_of_registers (fun _ => rfl) (fun _ => rfl) fun _ _ => rfl
  | moffsAl off => exact completes_of_benign (fun _ => rfl) ⟨fun _ => kept_writeByte _ _ _ _, fun _ _ _ => rfl⟩
  | moffsAx off => exact completes_of_benign (fun _ => rfl) ⟨fun _ => kept_writeWord _ _ _ _, fun _ _ _ => rfl⟩

theorem completes_xchgRm (f : XchgForm) : Completes (.xchgRm f) := by
  cases f with
  | reg8Rm8 r x =>
    exact completes_of_benign (fun _ => rfl) ⟨fun _ => (kept_setReg8 _ _ _).trans (kept_writeOp8 _ _ _), fun s p _ =>
      slotBlind_writeOp8 (s.resolve x) (s.reg8 r) (s.setReg8 r (s.readRM8 x)) p trivial⟩
  | reg16Rm16 r x =>
    exact completes_of_benign (fun _ => rfl) ⟨fun _ => (kept_setReg16 _ _ _).trans (kept_writeOp16 _ _ _), fun s p _ =>
      slotBlind_writeOp16 (s.resolve x) (s.reg16 r) (s.setReg16 r (s.readRM16 x)) p trivial⟩

theorem completes_popRm (x : RM16) : Completes (.popRm x) :=
  completes_of_benign (fun _ => rfl) ⟨fun _ => (kept_pop16 _).trans (kept_writeOp16 _ _ _), fun s p _ =>
    slotBlind_writeOp16 (s.resolve x) s.pop16.1 s.pop16.2 p trivial⟩

theorem completes_inPort (f : PortForm) : Completes (.inPort f) := by
  cases f with
  | byteImm n => exact completes_of_benign (fun _ => rfl) (benign_inByte (port := fun _ => zext16 n) fun _ _ => rfl)
  | wordImm n => exact completes_of_benign (fun _ => rfl) (benign_inWord (port := fun _ => zext16 n) fun _ _ => rfl)
  | byteDx => exact completes_of_benign (fun _ => rfl) (benign_inByte (port := (·.reg16 .dx)) fun _ _ => rfl)
  | wordDx => exact completes_of_benign (fun _ => rfl) (benign_inWord (port := (·.reg16 .dx)) fun _ _ => rfl)

theorem completes_outPort (f : PortForm) : Completes (.outPort f) := by
  cases f with
  | byteImm n =>
    exact completes_of_benign (fun _ => rfl) (benign_portOut8 (port := fun _ => zext16 n) (fun _ _ => rfl) fun _ _ => rfl)
  | wordImm n =>
    exact completes_of_benign (fun _ => rfl) (benign_portOut16 (port := fun _ => zext16 n) (fun _ _ => rfl) fun _ _ => rfl)
  | byteDx => exact completes_of_benign (fun _ => rfl) (benign_portOut8 (port := (·.reg16 .dx)) (fun _ _ => rfl) fun _ _ => rfl)
  | wordDx => exact completes_of_benign (fun _ => rfl) (benign_portOut16 (port := (·.reg16 .dx)) (fun _ _ => rfl) fun _ _ => rfl)

theorem completes_test (f : TestForm) : Completes (.test f) := by
  cases f <;> exact completes_of_benign (fun _ => rfl) ⟨fun _ => kept_applyFlags _ _, fun _ _ _ => rfl⟩

theorem completes_mul (f : UnaryForm) : Completes (.mul f) := by
  cases f <;> exact completes_of_benign (fun _ => rfl) (benign_regsThenFlags (fun _ _ => rfl) fun _ _ => rfl)

theorem completes_imul (f : UnaryForm) : Completes (.imul f) := by
  cases f <;> exact completes_of_benign (fun _ => rfl) (benign_regsThenFlags (fun _ _ => rfl) fun _ _ => rfl)

theorem completes_div (f : UnaryForm) : Completes (.div f) := by
  cases f with
  | rm8 x => exact completes_of_benign (fun _ => rfl) (benign_finishDiv8 fun _ _ => rfl)
  | rm16 x => exact completes_of_benign (fun _ => rfl) (benign_finishDiv16 fun _ _ => rfl)

theorem completes_idiv (f : UnaryForm) : Completes (.idiv f) := by
  cases f with
  | rm8 x => exact completes_of_benign (fun _ => rfl) (benign_finishDiv8 fun _ _ => rfl)
  | rm16 x => exact completes_of_benign (fun _ => rfl) (benign_finishDiv16 fun _ _ => rfl)

theorem completes_not (f : UnaryForm) : Completes (.not f) := by
  cases f with
  | rm8 x => exact completes_of_benign (fun _ => rfl) (benign_writeOp8 x fun _ _ => rfl)
  | rm16 x => exact completes_of_benign (fun _ => rfl) (benign_writeOp16 x fun _ _ => rfl)

/-- AAM is the divide error where its base is 0 (R286). -/
theorem completes_aam (base : Byte) : Completes (.aam base) := by
  by_cases hb : base = 0#8
  · exact completes_of_benign (fun _ => if_pos hb) benign_divideError
  · exact completes_of_benign (fun _ => if_neg hb)
      ⟨fun _ => Kept.trans (.of_registers rfl) (kept_applyFlags _ _), fun _ _ _ => rfl⟩

/-- BOUND raises vector 5 out of its bounds, and else does nothing (R483). -/
theorem completes_bound (r : Reg16) (m : MemOp) : Completes (.bound r m) :=
  completes_of_benign (fun _ => (apply_ite Host.Outcome.next _ _ _).symm) <|
    Benign.ite (fun _ _ => Iff.rfl)
      (Benign.then (.of_registers (fun _ => rfl) fun _ _ => rfl) (benign_raiseInterrupt 5#8)) .id

/-- PUSHA: eight pushes (R481). -/
theorem completes_pusha : Completes .pusha :=
  completes_of_benign (fun _ => rfl) ⟨fun s =>
    (kept_push16 s _).trans <| (kept_push16 _ _).trans <| (kept_push16 _ _).trans <| (kept_push16 _ _).trans <|
      (kept_push16 _ _).trans <| (kept_push16 _ _).trans <| (kept_push16 _ _).trans (kept_push16 _ _), fun _ _ _ => rfl⟩

/-- A pop into a register (R482). -/
theorem benign_popInto (r : Reg16) : Benign (·.popInto r) := .of_registers (fun _ => rfl) fun _ _ => rfl

/-- POPA: eight pops, one of them discarded (R482). -/
theorem completes_popa : Completes .popa :=
  have discard : Benign fun s => s.pop16.2 := .of_registers (fun _ => rfl) fun _ _ => rfl
  completes_of_benign (fun _ => rfl) <|
    (((((((benign_popInto .di).then (benign_popInto .si)).then (benign_popInto .bp)).then discard).then
      (benign_popInto .bx)).then (benign_popInto .dx)).then (benign_popInto .cx)).then (benign_popInto .ax)

/-- ENTER of level `l` (below 32) with the frame pointer `frame` that it makes (R491). -/
def enterAt (size : Word) (l : Nat) (frame : Word) (s : State) : State :=
  let s1 := s.push16 (s.reg16 .bp)
  let s2 := if l = 0 then s1 else (enterLoop (l - 1) s1).push16 frame
  let s3 := s2.setReg16 .bp frame
  s3.setReg16 .sp (s3.reg16 .sp - size)

theorem benign_enterAt (size : Word) (l : Nat) (frame : Word) : Benign (enterAt size l frame) :=
  have oldBp : Benign fun s => s.push16 (s.reg16 .bp) := benign_push16 fun _ _ => rfl
  have copied : Benign fun s => if l = 0 then s else (enterLoop (l - 1) s).push16 frame :=
    .ite (c := fun _ => l = 0) (fun _ _ => Iff.rfl) .id
      ((benign_enterLoop (l - 1)).then (benign_push16 (v := fun _ => frame) fun _ _ => rfl))
  have pointers : Benign fun s => (s.setReg16 .bp frame).setReg16 .sp ((s.setReg16 .bp frame).reg16 .sp - size) :=
    .of_registers (fun _ => rfl) fun _ _ => rfl
  (oldBp.then copied).then pointers

/-- The frame pointer is SP after the first push. -/
theorem completes_enter (size : Word) (level : Byte) : Completes (.enter size level) :=
  completes_of_benign (f := fun s => enterAt size (level.toNat % 32) ((s.push16 (s.reg16 .bp)).reg16 .sp) s) (fun _ => rfl)
    (.applied (benign_enterAt size _) fun _ _ => rfl)

/-- Every instruction completes. -/
theorem exec_completes (i : Instr) : Completes i := by
  cases i with
  | movRmReg _ => exact completes_movRmReg _
  | movRmImm _ => exact completes_movRmImm _
  | movRegImm _ => exact completes_movRegImm _
  | movMoffs _ => exact completes_movMoffs _
  | movRmSreg _ _ => exact completes_of_benign (fun _ => rfl) (benign_writeOp16 _ fun _ _ => rfl)
  | movSregRm _ _ | popReg _ | popSreg _ | xchgAx _ | xlat | lea _ _ | lds _ _ | les _ _ | lahf | popf | cbw | cwd
  | jmpShort _ | jmpNear _ | jmpRm _ | jmpFar _ _ | jmpMemFar _ | ret | retImm _ | retf | retfImm _ | iret | clc | stc
  | cmc | cld | std | cli | sti | leave => exact completes_of_registers (fun _ => rfl) (fun _ => rfl) fun _ _ => rfl
  | pushReg _ | pushRm _ | pushSreg _ | pushf | pushImm16 _ | pushImm8 _ =>
    exact completes_of_benign (fun _ => rfl) (benign_push16 fun _ _ => rfl)
  | popRm _ => exact completes_popRm _
  | xchgRm _ => exact completes_xchgRm _
  | inPort _ => exact completes_inPort _
  | outPort _ => exact completes_outPort _
  | sahf => exact completes_of_benign (fun _ => rfl) ⟨fun _ => kept_applyFlags _ _, fun _ _ _ => rfl⟩
  | add _ | adc _ | sub _ | sbb _ | and _ | or _ | xor _ => exact completes_of_benign (fun _ => rfl) (benign_alu _ _)
  | cmp _ => exact completes_of_benign (fun _ => rfl) (benign_aluDiscard _ _)
  | inc _ | dec _ => exact completes_of_benign (fun _ => rfl) (benign_incDec _ _)
  | neg _ => exact completes_of_benign (fun _ => rfl) (benign_unary _ _)
  | mul _ => exact completes_mul _
  | imul _ => exact completes_imul _
  | div _ => exact completes_div _
  | idiv _ => exact completes_idiv _
  | daa | das | aaa | aas | aad _ | imulImm16 _ _ _ | imulImm8 _ _ _ =>
    exact completes_of_benign (fun _ => rfl) (benign_regsThenFlags (fun _ _ => rfl) fun _ _ => rfl)
  | aam _ => exact completes_aam _
  | test _ => exact completes_test _
  | not _ => exact completes_not _
  | shl _ | shr _ | sar _ | rol _ | ror _ | rcl _ | rcr _ => exact completes_of_benign (fun _ => rfl) (benign_shift _ _)
  | movsb => exact completes_of_benign (fun _ => rfl) (benign_movsbBody.stringOp false)
  | movsw => exact completes_of_benign (fun _ => rfl) (benign_movswBody.stringOp false)
  | cmpsb => exact completes_of_benign (fun _ => rfl) (benign_cmpsbBody.stringOp true)
  | cmpsw => exact completes_of_benign (fun _ => rfl) (benign_cmpswBody.stringOp true)
  | scasb => exact completes_of_benign (fun _ => rfl) (benign_scasbBody.stringOp true)
  | scasw => exact completes_of_benign (fun _ => rfl) (benign_scaswBody.stringOp true)
  | lodsb => exact completes_of_benign (fun _ => rfl) (benign_lodsbBody.stringOp false)
  | lodsw => exact completes_of_benign (fun _ => rfl) (benign_lodswBody.stringOp false)
  | stosb => exact completes_of_benign (fun _ => rfl) (benign_stosbBody.stringOp false)
  | stosw => exact completes_of_benign (fun _ => rfl) (benign_stoswBody.stringOp false)
  | callNear _ | callRm _ => exact completes_of_benign (fun _ => rfl) (benign_callTo fun _ _ => rfl)
  | callFar _ _ | callMemFar _ => exact completes_of_benign (fun _ => rfl) (benign_callFarTo (fun _ _ => rfl) fun _ _ => rfl)
  | jo _ | jno _ | jb _ | jae _ | je _ | jne _ | jbe _ | ja _ | js _ | jns _ | jp _ | jnp _ | jl _ | jge _ | jle _
  | jg _ | jcxz _ => exact completes_of_jumpIf (fun _ => rfl) fun _ _ => rfl
  | loop _ => exact completes_of_loop (c := (·.reg16 .cx != 0#16)) (fun _ => rfl) fun _ _ => rfl
  | loopz _ => exact completes_of_loop (c := fun s => s.reg16 .cx != 0#16 && s.flags.zf) (fun _ => rfl) fun _ _ => rfl
  | loopnz _ => exact completes_of_loop (c := fun s => s.reg16 .cx != 0#16 && !s.flags.zf) (fun _ => rfl) fun _ _ => rfl
  | int _ | int3 => exact completes_of_benign (fun _ => rfl) (benign_raiseInterrupt _)
  | into => exact completes_of_benign (fun _ => rfl) (.ite (fun _ _ => Iff.rfl) (benign_raiseInterrupt 4#8) .id)
  | hlt => exact completes_hlt
  | wait | nop | esc _ _ _ => exact completes_of_benign (fun _ => rfl) .id
  | segEs | segCs | segSs | segDs | lock | repne | rep =>
    exact completes_of_prefix (fun _ => rfl) (fun _ => rfl) fun _ _ _ => rfl
  | pusha => exact completes_pusha
  | popa => exact completes_popa
  | bound _ _ => exact completes_bound _ _
  | insb => exact completes_of_benign (fun _ => rfl) (benign_insbBody.stringOp false)
  | insw => exact completes_of_benign (fun _ => rfl) (benign_inswBody.stringOp false)
  | outsb => exact completes_of_benign (fun _ => rfl) (benign_outsbBody.stringOp false)
  | outsw => exact completes_of_benign (fun _ => rfl) (benign_outswBody.stringOp false)
  | enter _ _ => exact completes_enter _ _
  | unrecognized _ => exact completes_of_takeFault (fun _ => rfl) (fun _ _ => rfl) fun h => h.1 _ rfl
  | decodeFault _ _ => exact completes_of_takeFault (fun _ => rfl) (fun _ _ => rfl) fun h => h.2 _ _ rfl

end Sys2Proof.Machine
end

section
/-! PROOFS. What a step of the driver upholds, piece by piece: the fetch of prefix bytes, the interrupts of an instruction
boundary, the end of a pass. -/

namespace Sys2Proof.Machine

open Sys2Proof

/-- What an instruction answers upholds what `Upheld` says. -/
theorem exec_upheld {i : Instr} {s t : State} (h : exec i s = .next t) : Upheld s t := by
  obtain ⟨f, hf⟩ := exec_completes i
  rw [hf.run s] at h
  cases h
  exact hf.upheld s

/-! ## Prefix bytes and dispatch (R141 to R146) -/

theorem kept_advance (s : State) (n : Nat) : Kept s (s.advance n) := kept_setIp s _

theorem upheld_leaveIdle (s : State) : Upheld s s.leaveIdle :=
  upheld_setControl s (by decide)

theorem upheld_toDispatch (s : State) (n : Nat) : Upheld s (s.toDispatch n) :=
  (kept_advance s n).upheld.trans (upheld_setControl _ (by decide))

/-- The prefix bytes and the instruction after them, by induction on the bytes that may still be fetched. -/
theorem runPass_upheld (fuel : Nat) : ∀ {s t : State}, runPass fuel s = .next t → Upheld s t := by
  induction fuel with
  | zero => exact fun h => nomatch h
  | succ fuel ih =>
    intro s t h
    cases hp : s.decodeNext.1.isPrefix with
    | false =>
      rw [runPass_dispatch fuel rfl hp] at h
      exact (upheld_toDispatch s _).trans (exec_upheld h)
    | true =>
      obtain ⟨f, hf⟩ := exec_completes s.decodeNext.1
      have he := hf.run (s.advance s.decodeNext.2)
      rw [runPass_prefix fuel rfl hp he] at h
      exact (kept_advance s _).upheld.trans ((exec_upheld he).trans (ih h))

/-! ## The instruction boundary (R148, R531 to R535) -/

/-- What the interrupts of an instruction boundary leave: all that `Upheld` says and Prefix State; the driver may have left
Halted. -/
structure KeptAtBoundary (s t : State) : Prop where
  upheld : Upheld s t
  pfx    : t.pfx = s.pfx
  driver : t.driver = s.driver ∨ t.driver = .idle

/-- The pending interrupt (R531). -/
theorem checkHardInt_keptAtBoundary (s : State) : KeptAtBoundary s s.checkHardInt := by
  unfold State.checkHardInt
  split
  · exact ⟨.refl s, rfl, .inl rfl⟩
  · next n _ =>
    split
    · have k : Kept s (({ s with pending := none } : State).raiseInterrupt n) :=
        (kept_setPending s none).trans (kept_raiseInterrupt _ n)
      exact ⟨k.upheld.trans (upheld_setControl _ (by decide)), k.pfx, .inr rfl⟩
    · exact ⟨.refl s, rfl, .inl rfl⟩

/-- Single-step before it (R148, R533). -/
theorem boundary_keptAtBoundary (tf0 : Bool) (s : State) : KeptAtBoundary s (s.boundary tf0) := by
  have k : Kept s (if s.cfg.tfSingleStep && tf0 then s.raiseInterrupt 1#8 else s) := by
    split
    · exact kept_raiseInterrupt s 1#8
    · exact Kept.refl s
  have h := checkHardInt_keptAtBoundary (if s.cfg.tfSingleStep && tf0 then s.raiseInterrupt 1#8 else s)
  exact ⟨k.upheld.trans h.upheld, h.pfx.trans k.pfx, k.driver ▸ h.driver⟩

/-! ## The end of a pass and the step (R147, R153) -/

/-- A pass ends in an instruction boundary with Prefix State empty (R140, R147). -/
theorem endPass_ends (tf0 : Bool) (s : State) :
    Upheld s (s.endPass tf0) ∧ (s.endPass tf0).pfx = PrefixState.empty ∧ (s.endPass tf0).atBoundary := by
  have u := upheld_setPfx s PrefixState.empty
  have b := boundary_keptAtBoundary tf0 { s with pfx := PrefixState.empty }
  dsimp only [State.endPass]
  split
  · next hd => exact ⟨u, rfl, .inr (.inr hd)⟩
  · next hd => exact ⟨u, rfl, .inl hd⟩
  · next hd => exact ⟨u.trans b.upheld, b.pfx, b.driver.elim (fun e => .inr (.inl (e.trans hd))) .inl⟩
  all_goals
    exact ⟨(u.trans b.upheld).trans (upheld_setControl _ (by decide)), b.pfx, .inl rfl⟩

/-- A pass that ends (R153). -/
theorem pass_ends {s t : State} (h : s.pass = .next t) :
    Upheld s t ∧ t.pfx = PrefixState.empty ∧ t.atBoundary := by
  unfold State.pass at h
  split at h
  · next s1 h1 =>
    cases h
    obtain ⟨u, hp, hb⟩ := endPass_ends s.flags.tf s1
    exact ⟨((upheld_leaveIdle s).trans (runPass_upheld _ h1)).trans u, hp, hb⟩
  all_goals exact nomatch h

/-- A step does nothing, or looks for a hardware interrupt, or is a pass. -/
theorem step_cases {s t : State} (h : step s = .next t) :
    (s.driver = .fault ∧ t = s) ∨ (s.driver = .halted ∧ t = s.checkHardInt) ∨ s.pass = .next t := by
  unfold step at h
  split at h
  · next hd => cases h; exact .inl ⟨hd, rfl⟩
  · next hd => cases h; exact .inr (.inl ⟨hd, rfl⟩)
  all_goals exact .inr (.inr h)

theorem step_upheld {s t : State} (h : step s = .next t) : Upheld s t := by
  rcases step_cases h with ⟨-, rfl⟩ | ⟨-, rfl⟩ | hp
  · exact .refl _
  · exact (checkHardInt_keptAtBoundary s).upheld
  · exact (pass_ends hp).1

/-- From an instruction boundary with Prefix State empty a step leads to one (R32, R33, R140). -/
theorem step_keeps_boundary {s t : State} (hb : s.atBoundary) (hp : s.pfx = PrefixState.empty) (h : step s = .next t) :
    t.atBoundary ∧ t.pfx = PrefixState.empty := by
  rcases step_cases h with ⟨-, rfl⟩ | ⟨hd, rfl⟩ | h
  · exact ⟨hb, hp⟩
  · have c := checkHardInt_keptAtBoundary s
    exact ⟨c.driver.elim (fun e => .inr (.inl (e.trans hd))) .inl, c.pfx.trans hp⟩
  · exact ⟨(pass_ends h).2.2, (pass_ends h).2.1⟩

/-- First boot gives the invariant when its memory and its tables are in canonical form (R42). -/
theorem boot_inv {cfg : Config} {m : Memory} (hm : Memory.wf m) (ht : (State.boot cfg m).tablesWf) :
    (State.boot cfg m).Inv :=
  ⟨hm, ht, .inl rfl, rfl, fun e => nomatch e⟩

end Sys2Proof.Machine
end

section
/-! PROOFS. The image of the flags, bit by bit (R30), and a word as its two bytes (R24). -/

namespace Sys2Proof.Machine

open Sys2Proof

/-- A word is its high byte before its low byte. -/
theorem hiByte_append_loByte (v : Word) : hiByte v ++ loByte v = v := wordOf_loHi v

/-- The sixteen bits of the image, bit 0 first (R30). -/
theorem image_bits (f : Flags) {i : Nat} (h : i < 16) : f.image.getLsbD i =
    [f.cf, true, f.pf, false, f.af, false, f.zf, f.sf, f.tf, f.iflag, f.df, f.of, true, true, true, true][i] := by
  interval_cases i <;> simp only [Flags.image, BitVec.getLsbD_append] <;> simp

/-- SetFlagsFromImage undoes FlagsImage (R30). -/
theorem ofImage_image (f : Flags) : Flags.ofImage f.image = f := by
  obtain ⟨cf, pf, af, zf, sf, tf, iflag, df, of⟩ := f
  simp only [Flags.ofImage, Flags.mk.injEq]
  refine ⟨?_, ?_, ?_, ?_, ?_, ?_, ?_, ?_, ?_⟩ <;> exact image_bits _ (by decide)

/-- FlagsImage after SetFlagsFromImage gives the nine bits of the word and the fixed ones (R30). -/
theorem image_ofImage (v : Word) : (Flags.ofImage v).image = (v &&& 0x0FD5#16) ||| 0xF002#16 := by
  refine BitVec.eq_of_getLsbD_eq fun i hi => ?_
  rw [image_bits _ hi]
  interval_cases i <;> simp [Flags.ofImage]

/-- A flag as a word stands in bit 0. -/
theorem getLsbD_flag (b : Bool) (i : Nat) : (b.toNat : Word).getLsbD i = (decide (i = 0) && b) := by
  cases b
  · simp
  · exact (BitVec.getLsbD_one (w := 16)).trans (by simp)

/-- The place of each flag in the image (R30). -/
theorem image_eq_or (f : Flags) :
    f.image = 0xF002#16 ||| (f.cf.toNat : Word) ||| ((f.pf.toNat : Word) <<< 2) ||| ((f.af.toNat : Word) <<< 4) |||
      ((f.zf.toNat : Word) <<< 6) ||| ((f.sf.toNat : Word) <<< 7) ||| ((f.tf.toNat : Word) <<< 8) |||
      ((f.iflag.toNat : Word) <<< 9) ||| ((f.df.toNat : Word) <<< 10) ||| ((f.of.toNat : Word) <<< 11) := by
  refine BitVec.eq_of_getLsbD_eq fun i hi => ?_
  rw [image_bits _ hi]
  interval_cases i <;> simp only [BitVec.getLsbD_or, BitVec.getLsbD_shiftLeft, getLsbD_flag] <;> simp

end Sys2Proof.Machine
end

section
/-! PROOFS. The obligations of `10_state.md`. -/

open Sys2Proof Sys2Proof.Machine Sys2Proof.Claims

/-- Settles O20: a step upholds memory, tables and the fault policy (`step_upheld`) and ends in a boundary. -/
theorem invariantKeptByStep : Obligations.InvariantKeptByStep := by
  unfold Obligations.InvariantKeptByStep
  intro s t ⟨hmem, htables, hbound, hpfx, hfault⟩ h
  have u := step_upheld h
  obtain ⟨tbound, tpfx⟩ := step_keeps_boundary hbound hpfx h
  have ttables : t.tablesWf := by
    unfold State.tablesWf
    rw [u.intTable, u.portTable]
    exact htables
  exact ⟨u.memWf hmem, ttables, tbound, tpfx, fun e => u.cfg ▸ (u.fault e).elim hfault id⟩

/-- Settles O21: five of the things that every step upholds. -/
theorem stepKeepsTablesAndLog : Obligations.StepKeepsTablesAndLog := by
  unfold Obligations.StepKeepsTablesAndLog
  intro s t h
  have u := step_upheld h
  exact ⟨u.intTable, u.portTable, u.cfg, u.diag, u.draws⟩

/-- Settles O22: that the slot is not written follows from its not being read. -/
theorem everyInstructionCompletes : Obligations.EveryInstructionCompletes := by
  unfold Obligations.EveryInstructionCompletes
  intro i s
  obtain ⟨f, h⟩ := exec_completes i
  refine ⟨f s, h.run s, h.cs0 s, h.ip0 s, fun hs => ⟨h.blind.pending hs, fun p => ?_⟩, fun h1 h2 => ?_⟩
  · rw [h.run, h.blind s p hs]
  · exact ⟨(h.noFault ⟨h1, h2⟩ s).faults, (h.noFault ⟨h1, h2⟩ s).driver⟩

/-- Settles O1, from the reads after a byte write, and a word being its two bytes. -/
theorem registerHalvesAlias : Obligations.RegisterHalvesAlias := by
  unfold Obligations.RegisterHalvesAlias
  intro s r v
  refine ⟨getReg8_setReg8_same _ _ _, fun r1 h => ?_, fun r1 h => ?_, ?_, ?_, ?_, ?_⟩
  · rw [State.reg8_setReg8, if_neg h.symm]
  · exact getReg16_setReg8_ne _ _ (by simpa using h)
  all_goals exact (hiByte_append_loByte _).symm

/-- Settles O4, from the sixteen bits of the image. -/
theorem flagsImageRoundTrips : Obligations.FlagsImageRoundTrips := by
  unfold Obligations.FlagsImageRoundTrips
  exact fun f v => ⟨image_eq_or f, ofImage_image f, image_ofImage v⟩

/-- Settles O19: memory and tables are empty at reset. -/
theorem invariantAtReset : Obligations.InvariantAtReset := by
  unfold Obligations.InvariantAtReset
  exact boot_inv ⟨.nil, fun _ h => nomatch h⟩ ⟨⟨.nil, fun _ h => nomatch h⟩, .nil, fun _ h => nomatch h⟩
end

section
/-! PROOFS. The obligations of `20_memory.md`: a word in memory, byte by byte (R64, R65). -/

namespace Sys2Proof.Machine

open Sys2Proof

/-- At the physical address of the word's offset the low byte is read, however that address is written as `seg:off`. -/
theorem readByte_writeWord_lo (s : State) {sg off sg2 off2 : Word} (v : Word) (h : phys sg2 off2 = phys sg off) :
    (s.writeWord sg off v).readByte sg2 off2 = loByte v := by
  rw [readByte_writeWord, h, if_neg (phys_succ_ne sg off).symm, if_pos rfl]

/-- At the physical address of the offset after it the high byte is read. -/
theorem readByte_writeWord_hi (s : State) {sg off sg2 off2 : Word} (v : Word)
    (h : phys sg2 off2 = phys sg (off + 1#16)) : (s.writeWord sg off v).readByte sg2 off2 = hiByte v := by
  rw [readByte_writeWord, if_pos h.symm]

/-- At a physical address that is none of the word's two, a word write changes nothing. -/
theorem readByte_writeWord_frame (s : State) {sg off sg2 off2 : Word} (v : Word)
    (h : phys sg2 off2 ∉ Claims.wordAt sg off) : (s.writeWord sg off v).readByte sg2 off2 = s.readByte sg2 off2 := by
  obtain ⟨hlo, hhi⟩ : phys sg2 off2 ≠ phys sg off ∧ phys sg2 off2 ≠ phys sg (off + 1#16) := by
    simpa [Claims.wordAt] using h
  exact readByte_writeWord_ne s v hlo hhi

end Sys2Proof.Machine

open Sys2Proof Sys2Proof.Machine Sys2Proof.Claims

/-- Settles O2, from what is read after a word write at its two addresses and elsewhere. -/
theorem wordWriteThenRead : Obligations.WordWriteThenRead := by
  unfold Obligations.WordWriteThenRead
  intro s sg off v
  exact ⟨readByte_writeWord_lo s v rfl, readByte_writeWord_hi s v rfl, readWord_writeWord_same s sg off v, rfl,
    phys_succ_ne sg off, rfl, fun _ _ => ⟨readByte_writeWord_lo s v, readByte_writeWord_hi s v,
      readByte_writeWord_frame s v⟩⟩
end

section
/-! PROOFS. From bytes to instructions and back: what each entry of the opcode map promises about the bytes it reads (R105),
row of eight by row of eight, and from it what `decode` promises. -/

namespace Sys2Proof

open Sys2Proof.Machine

/-! ## Fields of the ModRM byte and of the opcode byte -/

/-- The ModRM byte is its three fields (R95). -/
@[simp] theorem modRM_fields (m : Byte) : modRM (modOf m) (regOf m) (rmOf m) = m := by decide +revert

@[simp] theorem Reg8.bits_ofBits (r : BitVec 3) : (Reg8.ofBits r).bits = r := by decide +revert

@[simp] theorem Reg16.bits_ofBits (r : BitVec 3) : (Reg16.ofBits r).bits = r := by decide +revert

@[simp] theorem Base.bits_ofBits (r : BitVec 3) : (Base.ofBits r).bits = r := by decide +revert

/-- `rm` 6 alone names the base `[BP]` (R97). -/
theorem Base.ofBits_ne_bp {r : BitVec 3} (h : r ≠ 6#3) : Base.ofBits r ≠ .bp := by decide +revert

@[simp] theorem wordBytes_wordOf (lo hi : Byte) : wordBytes (wordOf lo hi) = [lo, hi] := by simp [wordBytes]

/-- An opcode byte is the first of its row of eight and its low three bits. -/
theorem eq_opReg_of_rowOf {op : Byte} {n : Nat} (h : (rowOf op).toNat = n) :
    op = opReg (BitVec.ofNat 8 (8 * n)) (rmOf op) := by
  subst h
  decide +revert

/-- Whether a ModRM byte faults depends on its `mod` and `reg` fields only (R123). -/
theorem isDecodeFault_fields (lvl : IsaLevel) (op m : Byte) :
    isDecodeFault lvl op (modRM (modOf m) (regOf m) 0#3) = isDecodeFault lvl op m := by
  have hmod : (modRM (modOf m) (regOf m) 0#3).toNat / 64 = m.toNat / 64 := by decide +revert
  have hreg : (modRM (modOf m) (regOf m) 0#3).toNat / 8 % 8 = m.toNat / 8 % 8 := by decide +revert
  unfold isDecodeFault
  rw [hmod, hreg]

/-- The eight values of a three-bit field. -/
theorem eight_cases {motive : BitVec 3 → Prop} (zero : motive 0#3) (one : motive 1#3) (two : motive 2#3)
    (three : motive 3#3) (four : motive 4#3) (five : motive 5#3) (six : motive 6#3) (seven : motive 7#3)
    (k : BitVec 3) : motive k := by
  obtain rfl | rfl | rfl | rfl | rfl | rfl | rfl | rfl : k = 0#3 ∨ k = 1#3 ∨ k = 2#3 ∨ k = 3#3 ∨ k = 4#3 ∨ k = 5#3 ∨
    k = 6#3 ∨ k = 7#3 := by decide +revert
  all_goals assumption

/-! ## Operands (R96 to R98) -/

/-- The first `n` of the bytes `b`. -/
def firstBytes (b : Nat → Byte) (n : Nat) : List Byte := (List.range n).map b

@[simp] theorem firstBytes_zero (b : Nat → Byte) : firstBytes b 0 = [] := rfl

theorem firstBytes_succ (b : Nat → Byte) (n : Nat) : firstBytes b (n + 1) = firstBytes b n ++ [b n] := by
  simp [firstBytes, List.range_succ]

theorem firstBytes_succ' (b : Nat → Byte) (n : Nat) :
    firstBytes b (n + 1) = b 0 :: firstBytes (fun k => b (k + 1)) n := by
  simp [firstBytes, List.range_succ_eq_map]

/-- An opcode byte, a ModRM byte and `n` bytes more. -/
theorem firstBytes_add_two (b : Nat → Byte) (n : Nat) :
    firstBytes b (n + 2) = b 0 :: b 1 :: firstBytes (fun k => b (k + 2)) n := by
  simp only [firstBytes_succ']

/-- A base combination without a displacement, other than `[BP]` (R98). -/
theorem MemOp.wf_based_none {c : Base} (h : c ≠ .bp) : (MemOp.based c .none).wf = true := by
  cases c with
  | bp => exact absurd rfl h
  | _ => rfl

/-- What reading a memory operand with `mod` and `rm` gives: an operand of at most two bytes after the ModRM byte, and with
the ModRM byte its encoding. -/
theorem decodeMem_encode {md : BitVec 2} (h : md ≠ 3#2) (reg rm : BitVec 3) (b : Nat → Byte) :
    (decodeMem md rm b).1.wf = true ∧ (decodeMem md rm b).2 ≤ 2 ∧
    (decodeMem md rm b).1.encode reg = modRM md reg rm :: firstBytes b (decodeMem md rm b).2 := by
  obtain rfl | rfl | rfl : md = 0#2 ∨ md = 1#2 ∨ md = 2#2 := by decide +revert
  · by_cases hrm : rm = 6#3
    · simp [decodeMem, hrm, MemOp.wf, MemOp.encode, firstBytes_succ']
    · simp [decodeMem, hrm, MemOp.wf_based_none (Base.ofBits_ne_bp hrm), MemOp.encode, Disp.modBits, Disp.bytes, firstBytes]
  · simp [decodeMem, MemOp.wf, MemOp.encode, Disp.modBits, Disp.bytes, firstBytes]
  · simp [decodeMem, MemOp.wf, MemOp.encode, Disp.modBits, Disp.bytes, firstBytes_succ']

/-- What reading a register-or-memory operand gives; `enc` is either of the two encoders. -/
theorem decodeRM_encode {ρ : Type} {ofBits : BitVec 3 → ρ} {enc : BitVec 3 → RM ρ → List Byte}
    (hreg : ∀ reg rm, enc reg (.reg (ofBits rm)) = [modRM 3#2 reg rm]) (hmem : ∀ reg x, enc reg (.mem x) = x.encode reg)
    (m : Byte) (b : Nat → Byte) :
    (decodeRM ofBits m b).1.wf = true ∧ (decodeRM ofBits m b).2 ≤ 2 ∧
    enc (regOf m) (decodeRM ofBits m b).1 = m :: firstBytes b (decodeRM ofBits m b).2 := by
  unfold decodeRM
  split
  · next h => exact ⟨rfl, Nat.zero_le _, by rw [hreg, ← h, modRM_fields]; rfl⟩
  · next h => simpa [RM.wf, hmem] using decodeMem_encode h (regOf m) (rmOf m) b

theorem decodeRM8_encode (m : Byte) (b : Nat → Byte) :
    (decodeRM Reg8.ofBits m b).1.wf = true ∧ (decodeRM Reg8.ofBits m b).2 ≤ 2 ∧
    encodeRM8 (regOf m) (decodeRM Reg8.ofBits m b).1 = m :: firstBytes b (decodeRM Reg8.ofBits m b).2 :=
  decodeRM_encode (fun _ _ => by simp [encodeRM8]) (fun _ _ => rfl) m b

theorem decodeRM16_encode (m : Byte) (b : Nat → Byte) :
    (decodeRM Reg16.ofBits m b).1.wf = true ∧ (decodeRM Reg16.ofBits m b).2 ≤ 2 ∧
    encodeRM16 (regOf m) (decodeRM Reg16.ofBits m b).1 = m :: firstBytes b (decodeRM Reg16.ofBits m b).2 :=
  decodeRM_encode (fun _ _ => by simp [encodeRM16]) (fun _ _ => rfl) m b

/-! ## What an entry of the opcode map promises -/

/-- The instruction is in the table at the level, and `l` is its encoding. -/
def Spells (lvl : IsaLevel) (i : Instr) (l : List Byte) : Prop := i.wf lvl = true ∧ encode i = l

/-- The promise of what follows the opcode byte `op` and a ModRM byte with the field `reg`: on every operand that a ModRM byte
encodes, an instruction spelled by the bytes read; where it faults, a ModRM byte of rule R123. -/
def SubSound (lvl : IsaLevel) (op : Byte) (reg : BitVec 3) : Sub → Prop
  | .fault => ∀ md, isDecodeFault lvl op (modRM md reg 0#3) = true
  | .mem f => isDecodeFault lvl op (modRM 3#2 reg 0#3) = true ∧
      ∀ x, x.wf = true → Spells lvl (f x) (op :: x.encode reg)
  | .rm8 f => ∀ x, x.wf = true → Spells lvl (f x) (op :: encodeRM8 reg x)
  | .rm16 f => ∀ x, x.wf = true → Spells lvl (f x) (op :: encodeRM16 reg x)
  | .rm8Imm8 f => ∀ x i, x.wf = true → Spells lvl (f x i) (op :: encodeRM8 reg x ++ [i])
  | .rm16Imm8 f => ∀ x i, x.wf = true → Spells lvl (f x i) (op :: encodeRM16 reg x ++ [i])
  | .rm16Imm16 f => ∀ x i, x.wf = true → Spells lvl (f x i) (op :: encodeRM16 reg x ++ wordBytes i)

/-- The promise of the entry of the opcode byte `op`. -/
def EntrySound (lvl : IsaLevel) (op : Byte) : Entry → Prop
  | .op i => Spells lvl i [op]
  | .imm8 f => ∀ i, Spells lvl (f i) [op, i]
  | .imm16 f => ∀ i, Spells lvl (f i) (op :: wordBytes i)
  | .imm16Imm8 f => ∀ i j, Spells lvl (f i j) (op :: wordBytes i ++ [j])
  | .ptr f => ∀ off sg, Spells lvl (f off sg) (op :: wordBytes off ++ wordBytes sg)
  | .modrm g => ∀ reg, SubSound lvl op reg (g reg)

/-- What R105 says of an instruction and a length read from the bytes `b`. -/
structure IsRow (lvl : IsaLevel) (b : Nat → Byte) (d : Instr × Nat) : Prop where
  wf    : d.1.wf lvl = true
  pos   : 1 ≤ d.2
  le    : d.2 ≤ 6
  bytes : encode d.1 = firstBytes b d.2

variable {lvl : IsaLevel}

/-- What is spelled by the first `n` bytes, 1 to 6 of them, is a row of length `n`. -/
theorem Spells.isRow {b : Nat → Byte} {i : Instr} {l : List Byte} {n : Nat} (h : Spells lvl i l) (hl : l = firstBytes b n)
    (hpos : 1 ≤ n) (hle : n ≤ 6) : IsRow lvl b (i, n) :=
  ⟨h.1, hpos, hle, h.2.trans hl⟩

/-- A faulting ModRM byte is a row of two bytes. -/
theorem isRow_decodeFault {b : Nat → Byte}
    (h : isDecodeFault lvl (b 0) (modRM (modOf (b 1)) (regOf (b 1)) 0#3) = true) :
    IsRow lvl b (.decodeFault (b 0) (b 1), 2) :=
  ⟨(isDecodeFault_fields lvl (b 0) (b 1)).symm.trans h, Nat.le_add_left 1 1, Nat.le_add_right 2 4, rfl⟩

/-! An opcode byte and a ModRM operand with `n` displacement bytes, followed by no immediate, a byte or a word. -/

section

variable {b : Nat → Byte} {l : List Byte} {n : Nat}

theorem firstBytes_operand (h : l = b 1 :: firstBytes (fun k => b (k + 2)) n) : b 0 :: l = firstBytes b (2 + n) := by
  rw [h, Nat.add_comm, firstBytes_add_two]

theorem firstBytes_operand_byte (h : l = b 1 :: firstBytes (fun k => b (k + 2)) n) :
    b 0 :: l ++ [b (n + 2)] = firstBytes b (3 + n) := by
  rw [firstBytes_operand h, Nat.add_comm 3, firstBytes_succ, Nat.add_comm n]

theorem firstBytes_operand_word (h : l = b 1 :: firstBytes (fun k => b (k + 2)) n) :
    b 0 :: l ++ wordBytes (wordOf (b (n + 2)) (b (n + 1 + 2))) = firstBytes b (4 + n) := by
  rw [wordBytes_wordOf, Nat.add_comm 4, firstBytes_succ b (n + 3), Nat.add_comm n 3, ← firstBytes_operand_byte h]
  simp [Nat.add_comm]

end

/-- A promise about what follows the ModRM byte is kept by `decodeSub`. -/
theorem decodeSub_isRow {b : Nat → Byte} {sub : Sub} (h : SubSound lvl (b 0) (regOf (b 1)) sub) :
    IsRow lvl b (decodeSub (b 0) (b 1) sub fun k => b (k + 2)) := by
  obtain ⟨wf8, le8, enc8⟩ := decodeRM8_encode (b 1) fun k => b (k + 2)
  obtain ⟨wf16, le16, enc16⟩ := decodeRM16_encode (b 1) fun k => b (k + 2)
  cases sub with
  | fault => exact isRow_decodeFault (h _)
  | mem f =>
    by_cases hmd : modOf (b 1) = 3#2
    · simp only [decodeSub, if_pos hmd]
      exact isRow_decodeFault (hmd ▸ h.1)
    · obtain ⟨hwf, hle, henc⟩ := decodeMem_encode hmd (regOf (b 1)) (rmOf (b 1)) fun k => b (k + 2)
      rw [modRM_fields] at henc
      simp only [decodeSub, if_neg hmd]
      exact (h.2 _ hwf).isRow (firstBytes_operand henc) (by omega) (by omega)
  | rm8 f => exact (h _ wf8).isRow (firstBytes_operand enc8) (by omega) (by omega)
  | rm16 f => exact (h _ wf16).isRow (firstBytes_operand enc16) (by omega) (by omega)
  | rm8Imm8 f => exact (h _ _ wf8).isRow (firstBytes_operand_byte enc8) (by omega) (by omega)
  | rm16Imm8 f => exact (h _ _ wf16).isRow (firstBytes_operand_byte enc16) (by omega) (by omega)
  | rm16Imm16 f => exact (h _ _ wf16).isRow (firstBytes_operand_word enc16) (by omega) (by omega)

/-- The promise of an opcode byte's entry is kept by `decode`. -/
theorem decode_isRow {b : Nat → Byte} (h : EntrySound lvl (b 0) (opcodeEntry lvl (b 0))) :
    IsRow lvl b (decode lvl b) := by
  unfold decode
  generalize opcodeEntry lvl (b 0) = e at h
  cases e with
  | op i => exact Spells.isRow h rfl (by decide) (by decide)
  | imm8 f => exact (h _).isRow rfl (by decide) (by decide)
  | imm16 f => exact (h _).isRow (by simp [firstBytes_succ']) (by decide) (by decide)
  | imm16Imm8 f => exact (h _ _).isRow (by simp [firstBytes_succ']) (by decide) (by decide)
  | ptr f => exact (h _ _).isRow (by simp [firstBytes_succ']) (by decide) (by decide)
  | modrm g => exact decodeSub_isRow (h _)

/-! ## The groups (R119) -/

/-- The ALU operation of a `reg` value is spelled with that value. -/
theorem group1_spells (reg : BitVec 3) {f : AluForm} (h : f.wf = true) : Spells lvl (group1 reg f) (encodeAlu reg f) := by
  cases reg using eight_cases <;> exact ⟨h, rfl⟩

/-- So is the shift of a `reg` value that names one. -/
theorem shiftGroup_spells {reg : BitVec 3} {mk : ShiftForm → Instr} (hmk : shiftGroup reg = some mk) {f : ShiftForm}
    (h : f.wf lvl = true) : Spells lvl (mk f) (encodeShift reg f) := by
  cases reg using eight_cases with
  | six => exact nomatch hmk
  | _ => cases hmk; exact ⟨h, rfl⟩

/-- A decode fault of the 8086 level is one at both levels (R123). -/
theorem isDecodeFault_of_i8086 {op m : Byte} (h : isDecodeFault .i8086 op m = true) : isDecodeFault lvl op m = true := by
  cases lvl with
  | i8086 => exact h
  | i80186 => simp_all [isDecodeFault]

variable {op : Byte}

/-- A `reg` value that faults at the 8086 level, whatever `mod` is. -/
theorem fault_sound {reg : BitVec 3} (h : ∀ md, isDecodeFault .i8086 op (modRM md reg 0#3) = true) :
    SubSound lvl op reg .fault := fun md => isDecodeFault_of_i8086 (h md)

/-- A shift group faults on `reg` 6 only. -/
theorem shiftEntry_sound {sub : (ShiftForm → Instr) → Sub} (hfault : SubSound lvl op 6#3 .fault)
    (h : ∀ reg mk, shiftGroup reg = some mk → SubSound lvl op reg (sub mk)) : EntrySound lvl op (shiftEntry sub) := by
  intro reg
  cases reg using eight_cases with
  | six => exact hfault
  | _ => exact h _ _ rfl

/-- A group with the member 0 only faults on every other `reg`. -/
theorem onlyReg0_sound {sub : Sub} (h : SubSound lvl op 0#3 sub)
    (hfault : ∀ reg ≠ 0#3, ∀ md, isDecodeFault .i8086 op (modRM md reg 0#3) = true) : EntrySound lvl op (onlyReg0 sub) := by
  intro reg
  dsimp only
  split
  · next h0 => exact h0 ▸ h
  · next h0 => exact fault_sound (hfault reg h0)

theorem groupF6_sound (reg : BitVec 3) : SubSound lvl 0xF6#8 reg (groupF6 reg) := by
  cases reg using eight_cases with
  | zero => exact fun _ _ h => ⟨h, rfl⟩
  | one => exact fault_sound (by decide)
  | _ => exact fun _ h => ⟨h, rfl⟩

theorem groupF7_sound (reg : BitVec 3) : SubSound lvl 0xF7#8 reg (groupF7 reg) := by
  cases reg using eight_cases with
  | zero => exact fun _ _ h => ⟨h, rfl⟩
  | one => exact fault_sound (by decide)
  | _ => exact fun _ h => ⟨h, rfl⟩

theorem groupFE_sound (reg : BitVec 3) : SubSound lvl 0xFE#8 reg (groupFE reg) := by
  cases reg using eight_cases with
  | zero | one => exact fun _ h => ⟨h, rfl⟩
  | _ => exact fault_sound (by decide)

theorem groupFF_sound (reg : BitVec 3) : SubSound lvl 0xFF#8 reg (groupFF reg) := by
  cases reg using eight_cases with
  | three | five => exact ⟨isDecodeFault_of_i8086 rfl, fun _ h => ⟨h, rfl⟩⟩
  | seven => exact fault_sound (by decide)
  | _ => exact fun _ h => ⟨h, rfl⟩

/-! ## The rows of eight (R106 to R117)

`k` is an entry's place in its row. Where an entry is one instruction with immediates, its operands are well formed whatever
they are and its encoding is the table's; where it has a ModRM byte, well-formedness is that of the operand; where it is a
fault, the ModRM byte's fields are checked against rule R123. -/

/-- An entry that the 80186 level adds is unrecognized at the 8086 level (R121). -/
theorem level186_sound {e : Entry} (h8086 : isUnrecognized .i8086 op = true) (h : EntrySound .i80186 op e) :
    EntrySound lvl op (level186 lvl op e) := by
  cases lvl with
  | i8086 => exact ⟨h8086, rfl⟩
  | i80186 => exact h

/-- An opcode byte that is unrecognized at both levels (R121). -/
theorem unrecognized_sound (h8086 : isUnrecognized .i8086 op = true) (h80186 : isUnrecognized .i80186 op = true) :
    EntrySound lvl op (.op (.unrecognized op)) := by
  cases lvl with
  | i8086 => exact ⟨h8086, rfl⟩
  | i80186 => exact ⟨h80186, rfl⟩

variable {k : BitVec 3}

/-- An entry that is one instruction of one byte. -/
theorem op_sound {i : Instr} {c : Byte} (h : Spells lvl i [c]) (hop : op = c) : EntrySound lvl op (.op i) := hop ▸ h

/-- The row of ALU operation number `o`; its last two entries are of other kinds. -/
theorem aluRow_sound {mk : AluForm → Instr} {six seven : Entry} (o : BitVec 3) (hop : op = aluOp o (k.setWidth 8))
    (spells : ∀ f, f.wf = true → Spells lvl (mk f) (encodeAlu o f)) (hsix : op = aluOp o 6#8 → EntrySound lvl op six)
    (hseven : op = aluOp o 7#8 → EntrySound lvl op seven) : EntrySound lvl op (aluRow mk six seven k) := by
  subst hop
  cases k using eight_cases with
  | zero => exact fun r x h => by simpa [encodeAlu] using spells (.rm8Reg8 x (Reg8.ofBits r)) h
  | one => exact fun r x h => by simpa [encodeAlu] using spells (.rm16Reg16 x (Reg16.ofBits r)) h
  | two => exact fun r x h => by simpa [encodeAlu] using spells (.reg8Rm8 (Reg8.ofBits r) x) h
  | three => exact fun r x h => by simpa [encodeAlu] using spells (.reg16Rm16 (Reg16.ofBits r) x) h
  | four => exact fun i => spells (.alImm8 i) rfl
  | five => exact fun i => spells (.axImm16 i) rfl
  | six => exact hsix rfl
  | seven => exact hseven rfl

theorem row60_sound (hop : op = opReg 0x60#8 k) : EntrySound lvl op (row60 lvl op k) := by
  subst hop
  cases k using eight_cases with
  | zero | one => exact level186_sound rfl ⟨rfl, rfl⟩
  | two => exact level186_sound rfl fun r => ⟨by decide +revert, fun x h => ⟨h, by simp [encode, opReg]⟩⟩
  | _ => exact unrecognized_sound rfl rfl

theorem row68_sound (hop : op = opReg 0x68#8 k) : EntrySound lvl op (row68 lvl op k) := by
  subst hop
  cases k using eight_cases with
  | zero | two => exact level186_sound rfl fun _ => ⟨rfl, rfl⟩
  | one | three => exact level186_sound rfl fun r x i h => ⟨h, by simp [encode, opReg]⟩
  | _ => exact level186_sound rfl ⟨rfl, rfl⟩

theorem row70_sound (hop : op = opReg 0x70#8 k) : EntrySound lvl op (row70 k) := by
  subst hop
  cases k using eight_cases <;> exact fun _ => ⟨rfl, rfl⟩

theorem row78_sound (hop : op = opReg 0x78#8 k) : EntrySound lvl op (row78 k) := by
  subst hop
  cases k using eight_cases <;> exact fun _ => ⟨rfl, rfl⟩

theorem row80_sound (hop : op = opReg 0x80#8 k) : EntrySound lvl op (row80 k) := by
  subst hop
  cases k using eight_cases with
  | zero | one | two | three => exact fun r x i h => group1_spells r h
  | _ => exact fun r x h => ⟨h, by simp [encode, opReg]⟩

theorem row88_sound (hop : op = opReg 0x88#8 k) : EntrySound lvl op (row88 k) := by
  subst hop
  cases k using eight_cases with
  | zero | one | two | three => exact fun r x h => ⟨h, by simp [encode, opReg]⟩
  | four =>
    intro r
    cases r using eight_cases with
    | zero | one | two | three => exact fun x h => ⟨h, rfl⟩
    | _ => exact fault_sound (by decide)
  | five => exact fun r => ⟨isDecodeFault_of_i8086 (by decide +revert), fun x h => ⟨h, by simp [encode, opReg]⟩⟩
  | six =>
    intro r
    cases r using eight_cases with
    | zero | two | three => exact fun x h => ⟨h, rfl⟩
    | _ => exact fault_sound (by decide)
  | seven => exact onlyReg0_sound (fun x h => ⟨h, rfl⟩) (by decide)

theorem row90_sound (hop : op = opReg 0x90#8 k) : EntrySound lvl op (row90 k) := by
  subst hop
  cases k using eight_cases <;> exact ⟨rfl, rfl⟩

theorem row98_sound (hop : op = opReg 0x98#8 k) : EntrySound lvl op (row98 k) := by
  subst hop
  cases k using eight_cases with
  | two => exact fun _ _ => ⟨rfl, rfl⟩
  | _ => exact ⟨rfl, rfl⟩

theorem rowA0_sound (hop : op = opReg 0xA0#8 k) : EntrySound lvl op (rowA0 k) := by
  subst hop
  cases k using eight_cases with
  | zero | one | two | three => exact fun _ => ⟨rfl, rfl⟩
  | _ => exact ⟨rfl, rfl⟩

theorem rowA8_sound (hop : op = opReg 0xA8#8 k) : EntrySound lvl op (rowA8 k) := by
  subst hop
  cases k using eight_cases with
  | zero | one => exact fun _ => ⟨rfl, rfl⟩
  | _ => exact ⟨rfl, rfl⟩

theorem rowC0_sound (hop : op = opReg 0xC0#8 k) : EntrySound lvl op (rowC0 lvl op k) := by
  subst hop
  cases k using eight_cases with
  | zero | one =>
    exact level186_sound rfl (shiftEntry_sound (by unfold SubSound; decide) fun reg mk hmk x i h => shiftGroup_spells hmk h)
  | two => exact fun _ => ⟨rfl, rfl⟩
  | three => exact ⟨rfl, rfl⟩
  | four | five => exact fun r => ⟨isDecodeFault_of_i8086 (by decide +revert), fun x h => ⟨h, by simp [encode, opReg]⟩⟩
  | six | seven => exact onlyReg0_sound (fun x i h => ⟨h, rfl⟩) (by decide)

theorem rowC8_sound (hop : op = opReg 0xC8#8 k) : EntrySound lvl op (rowC8 lvl op k) := by
  subst hop
  cases k using eight_cases with
  | zero => exact level186_sound rfl fun _ _ => ⟨rfl, rfl⟩
  | one => exact level186_sound rfl ⟨rfl, rfl⟩
  | two | five => exact fun _ => ⟨rfl, rfl⟩
  | _ => exact ⟨rfl, rfl⟩

theorem rowD0_sound (hop : op = opReg 0xD0#8 k) : EntrySound lvl op (rowD0 op k) := by
  subst hop
  cases k using eight_cases with
  | zero | one | two | three =>
    exact shiftEntry_sound (fault_sound (by decide)) fun reg mk hmk x h => shiftGroup_spells hmk h
  | four | five => exact fun _ => ⟨rfl, rfl⟩
  | six => exact unrecognized_sound rfl rfl
  | seven => exact ⟨rfl, rfl⟩

theorem rowE0_sound (hop : op = opReg 0xE0#8 k) : EntrySound lvl op (rowE0 k) := by
  subst hop
  cases k using eight_cases <;> exact fun _ => ⟨rfl, rfl⟩

theorem rowE8_sound (hop : op = opReg 0xE8#8 k) : EntrySound lvl op (rowE8 k) := by
  subst hop
  cases k using eight_cases with
  | zero | one | three => exact fun _ => ⟨rfl, rfl⟩
  | two => exact fun _ _ => ⟨rfl, rfl⟩
  | _ => exact ⟨rfl, rfl⟩

theorem rowF0_sound (hop : op = opReg 0xF0#8 k) : EntrySound lvl op (rowF0 op k) := by
  subst hop
  cases k using eight_cases with
  | one => exact unrecognized_sound rfl rfl
  | six => exact groupF6_sound
  | seven => exact groupF7_sound
  | _ => exact ⟨rfl, rfl⟩

theorem rowF8_sound (hop : op = opReg 0xF8#8 k) : EntrySound lvl op (rowF8 k) := by
  subst hop
  cases k using eight_cases with
  | six => exact groupFE_sound
  | seven => exact groupFF_sound
  | _ => exact ⟨rfl, rfl⟩

/-- Every entry of the opcode map keeps its promise. -/
theorem opcodeEntry_sound (lvl : IsaLevel) (op : Byte) : EntrySound lvl op (opcodeEntry lvl op) := by
  unfold opcodeEntry
  split
  · next h =>
    exact aluRow_sound 0#3 (eq_opReg_of_rowOf h) (fun _ hf => ⟨hf, rfl⟩) (op_sound ⟨rfl, rfl⟩) (op_sound ⟨rfl, rfl⟩)
  · next h =>
    exact aluRow_sound 1#3 (eq_opReg_of_rowOf h) (fun _ hf => ⟨hf, rfl⟩) (op_sound ⟨rfl, rfl⟩) fun e =>
      unrecognized_sound (e ▸ rfl) (e ▸ rfl)
  · next h =>
    exact aluRow_sound 2#3 (eq_opReg_of_rowOf h) (fun _ hf => ⟨hf, rfl⟩) (op_sound ⟨rfl, rfl⟩) (op_sound ⟨rfl, rfl⟩)
  · next h =>
    exact aluRow_sound 3#3 (eq_opReg_of_rowOf h) (fun _ hf => ⟨hf, rfl⟩) (op_sound ⟨rfl, rfl⟩) (op_sound ⟨rfl, rfl⟩)
  · next h =>
    exact aluRow_sound 4#3 (eq_opReg_of_rowOf h) (fun _ hf => ⟨hf, rfl⟩) (op_sound ⟨rfl, rfl⟩) (op_sound ⟨rfl, rfl⟩)
  · next h =>
    exact aluRow_sound 5#3 (eq_opReg_of_rowOf h) (fun _ hf => ⟨hf, rfl⟩) (op_sound ⟨rfl, rfl⟩) (op_sound ⟨rfl, rfl⟩)
  · next h =>
    exact aluRow_sound 6#3 (eq_opReg_of_rowOf h) (fun _ hf => ⟨hf, rfl⟩) (op_sound ⟨rfl, rfl⟩) (op_sound ⟨rfl, rfl⟩)
  · next h =>
    exact aluRow_sound 7#3 (eq_opReg_of_rowOf h) (fun _ hf => ⟨hf, rfl⟩) (op_sound ⟨rfl, rfl⟩) (op_sound ⟨rfl, rfl⟩)
  · next h => exact ⟨rfl, by simp [encode, ← eq_opReg_of_rowOf h]⟩
  · next h => exact ⟨rfl, by simp [encode, ← eq_opReg_of_rowOf h]⟩
  · next h => exact ⟨rfl, by simp [encode, ← eq_opReg_of_rowOf h]⟩
  · next h => exact ⟨rfl, by simp [encode, ← eq_opReg_of_rowOf h]⟩
  · next h => exact row60_sound (eq_opReg_of_rowOf h)
  · next h => exact row68_sound (eq_opReg_of_rowOf h)
  · next h => exact row70_sound (eq_opReg_of_rowOf h)
  · next h => exact row78_sound (eq_opReg_of_rowOf h)
  · next h => exact row80_sound (eq_opReg_of_rowOf h)
  · next h => exact row88_sound (eq_opReg_of_rowOf h)
  · next h => exact row90_sound (eq_opReg_of_rowOf h)
  · next h => exact row98_sound (eq_opReg_of_rowOf h)
  · next h => exact rowA0_sound (eq_opReg_of_rowOf h)
  · next h => exact rowA8_sound (eq_opReg_of_rowOf h)
  · next h => exact fun _ => ⟨rfl, by simp [encode, ← eq_opReg_of_rowOf h]⟩
  · next h => exact fun _ => ⟨rfl, by simp [encode, ← eq_opReg_of_rowOf h]⟩
  · next h => exact rowC0_sound (eq_opReg_of_rowOf h)
  · next h => exact rowC8_sound (eq_opReg_of_rowOf h)
  · next h => exact rowD0_sound (eq_opReg_of_rowOf h)
  · next h => exact fun r x hx => ⟨hx, by simp [encode, ← eq_opReg_of_rowOf h]⟩
  · next h => exact rowE0_sound (eq_opReg_of_rowOf h)
  · next h => exact rowE8_sound (eq_opReg_of_rowOf h)
  · next h => exact rowF0_sound (eq_opReg_of_rowOf h)
  · have hrow : (rowOf op).toNat = 31 := by have := (rowOf op).isLt; simp only [imp_false] at *; omega
    exact rowF8_sound (eq_opReg_of_rowOf hrow)

/-! ## The bytes with no routine (R121) -/

/-- The 23 bytes of the 8086 level. -/
theorem isUnrecognized_i8086_iff (op : Byte) : isUnrecognized .i8086 op = true ↔
    op ∈ [0x0F#8, 0x60#8, 0x61#8, 0x62#8, 0x63#8, 0x64#8, 0x65#8, 0x66#8, 0x67#8, 0x68#8, 0x69#8, 0x6A#8, 0x6B#8,
      0x6C#8, 0x6D#8, 0x6E#8, 0x6F#8, 0xC0#8, 0xC1#8, 0xC8#8, 0xC9#8, 0xD6#8, 0xF1#8] := by decide +revert

/-- The 8 bytes of the 80186 level. -/
theorem isUnrecognized_i80186_iff (op : Byte) : isUnrecognized .i80186 op = true ↔
    op ∈ [0x0F#8, 0x63#8, 0x64#8, 0x65#8, 0x66#8, 0x67#8, 0xD6#8, 0xF1#8] := by decide +revert

/-- They have the unrecognized entry in the opcode map. -/
theorem opcodeEntry_of_isUnrecognized {op : Byte} (h : isUnrecognized lvl op = true) :
    opcodeEntry lvl op = .op (.unrecognized op) := by
  cases lvl with
  | i8086 => rw [isUnrecognized_i8086_iff] at h; fin_cases h <;> rfl
  | i80186 => rw [isUnrecognized_i80186_iff] at h; fin_cases h <;> rfl

/-- What `decode` answers is a row, so an unrecognized row is the byte itself, and that byte has no routine. -/
theorem decode_eq_unrecognized_iff (b : Nat → Byte) (op : Byte) :
    (decode lvl b).1 = .unrecognized op ↔ op = b 0 ∧ isUnrecognized lvl (b 0) = true := by
  constructor
  · intro h
    obtain ⟨hwf, hpos, -, hbytes⟩ := decode_isRow (opcodeEntry_sound lvl (b 0))
    rw [h] at hwf hbytes
    have hop : op = b 0 := by
      rw [← Nat.sub_add_cancel hpos, firstBytes_succ'] at hbytes
      exact (List.cons.inj hbytes).1
    exact ⟨hop, hop ▸ hwf⟩
  · rintro ⟨rfl, h⟩
    rw [decode, opcodeEntry_of_isUnrecognized h]

end Sys2Proof

open Sys2Proof

/-- Settles O6: `decode` keeps the promise of the opcode byte's entry, and every entry keeps its promise. -/
theorem encodeOfDecode : Obligations.EncodeOfDecode := by
  unfold Obligations.EncodeOfDecode
  intro lvl b
  obtain ⟨hwf, hpos, hle, hbytes⟩ := decode_isRow (opcodeEntry_sound lvl (b 0))
  exact ⟨hwf, hpos, hle, hbytes⟩

/-- Settles O7: `decode` answers an unrecognized row on the bytes of `isUnrecognized` and no others. -/
theorem unrecognizedBytesAreThese : Obligations.UnrecognizedBytesAreThese := by
  unfold Obligations.UnrecognizedBytesAreThese
  intro b op
  rw [decode_eq_unrecognized_iff, decode_eq_unrecognized_iff, isUnrecognized_i8086_iff, isUnrecognized_i80186_iff]
  exact ⟨Iff.rfl, Iff.rfl⟩
end

section
/-! PROOFS. What a ModRM byte names (R160 to R163, R165). -/

namespace Sys2Proof.Machine

open Sys2Proof

/-- The default segment is SS where the base has BP: `rm` 2, 3 and 6 (R165). -/
theorem defaultSeg_ofBits (rm : BitVec 3) (d : Disp) :
    defaultSeg (.based (Base.ofBits rm) d) = if rm = 2#3 ∨ rm = 3#3 ∨ rm = 6#3 then .ss else .ds := by
  cases rm using eight_cases <;> rfl

/-- A memory operand: its displacement bytes, its effective address and its segment, by `mod` and `rm` (R161 to R163, R165). -/
theorem decodeMem_names (s : State) {md : BitVec 2} (h : md ≠ 3#2) (rm : BitVec 3) (b : Nat → Byte) :
    (decodeMem md rm b).2 = (if md = 0#2 then (if rm = 6#3 then 2 else 0) else if md = 1#2 then 1 else 2) ∧
    s.ea (decodeMem md rm b).1 = (if md = 0#2 ∧ rm = 6#3 then b 1 ++ b 0
      else baseSum s.regs (Base.ofBits rm) +
        (if md = 0#2 then 0#16 else if md = 1#2 then (b 0).signExtend 16 else b 1 ++ b 0)) ∧
    s.memSeg (decodeMem md rm b).1 = s.sreg (s.pfx.seg.getD
      (if rm = 2#3 ∨ rm = 3#3 ∨ (rm = 6#3 ∧ md ≠ 0#2) then .ss else .ds)) := by
  obtain rfl | rfl | rfl : md = 0#2 ∨ md = 1#2 ∨ md = 2#2 := by decide +revert
  · by_cases hrm : rm = 6#3
    · subst hrm
      exact ⟨rfl, rfl, rfl⟩
    · simp [decodeMem, hrm, State.ea, effAddr, dispValue, State.memSeg, State.segFor, defaultSeg_ofBits]
  · simp [decodeMem, State.ea, effAddr, dispValue, sext16, State.memSeg, State.segFor, defaultSeg_ofBits]
  · simp [decodeMem, State.ea, effAddr, dispValue, wordOf, State.memSeg, State.segFor, defaultSeg_ofBits]

end Sys2Proof.Machine

open Sys2Proof Sys2Proof.Machine Sys2Proof.Claims

/-- Settles O3, from the memory operand's three parts; its base sum is read off for each `rm`. -/
theorem modRmNamesItsOperand : Obligations.ModRmNamesItsOperand := by
  unfold Obligations.ModRmNamesItsOperand
  intro s m b
  refine ⟨fun h => ⟨if_pos h, if_pos h⟩, fun h => ?_⟩
  obtain ⟨hlen, hea, hseg⟩ := decodeMem_names s h (rmOf m) b
  refine ⟨_, _, if_neg h, if_neg h, hlen, hea.trans ?_, hseg⟩
  congr 2
  generalize rmOf m = rm
  cases rm using eight_cases <;> rfl
end

section
/-! PROOFS. Prefix bytes (R104, R142 to R144): which bytes they are, what they record, and a pass over any number of them. -/

namespace Sys2Proof.Machine

open Sys2Proof Sys2Proof.Claims

/-! ## One prefix byte -/

/-- The seven prefix bytes (R104). -/
abbrev prefixBytes : List Byte := [0x26#8, 0x2E#8, 0x36#8, 0x3E#8, 0xF0#8, 0xF2#8, 0xF3#8]

/-- The length that is decoded is that of the encoding (R105). -/
theorem decode_length (lvl : IsaLevel) (b : Nat → Byte) : (decode lvl b).2 = (encode (decode lvl b).1).length := by
  rw [(decode_isRow (opcodeEntry_sound lvl (b 0))).bytes, firstBytes, List.length_map, List.length_range]

/-- A prefix row is one of the seven bytes. -/
theorem encode_of_isPrefix {i : Instr} (h : i.isPrefix = true) : ∃ p ∈ prefixBytes, encode i = [p] := by
  cases i with
  | segEs | segCs | segSs | segDs | lock | repne | rep => exact ⟨_, by decide, rfl⟩
  | _ => exact nomatch h

theorem decode_length_of_isPrefix {lvl : IsaLevel} {b : Nat → Byte} (h : (decode lvl b).1.isPrefix = true) :
    (decode lvl b).2 = 1 := by
  obtain ⟨p, -, hp⟩ := encode_of_isPrefix h
  rw [decode_length, hp, List.length_singleton]

/-- A prefix byte is decoded exactly where one stands. -/
theorem decode_isPrefix_iff (lvl : IsaLevel) (b : Nat → Byte) :
    (decode lvl b).1.isPrefix = true ↔ b 0 ∈ prefixBytes := by
  constructor
  · intro h
    obtain ⟨p, hmem, hp⟩ := encode_of_isPrefix h
    have hbytes := (decode_isRow (opcodeEntry_sound lvl (b 0))).bytes
    rw [hp, decode_length_of_isPrefix h, firstBytes_succ'] at hbytes
    exact (List.cons.inj hbytes).1 ▸ hmem
  · unfold decode
    generalize b 0 = op
    intro h
    fin_cases h <;> rfl

@[simp] theorem collected_nil : collected [] = PrefixState.empty := rfl

/-- Prefix State after one more prefix byte: of each class the last one wins (R104, R143). -/
theorem collected_concat (ps : List Instr) (p : Instr) :
    collected (ps ++ [p]) = ⟨(segOf p).or (collected ps).seg, (repOf p).or (collected ps).rep,
      p == .lock || (collected ps).lock⟩ := by
  simp only [collected, List.reverse_concat, List.findSome?_cons, List.any_append, List.any_cons, List.any_nil,
    Bool.or_comm]
  congr 1
  · cases segOf p <;> rfl
  · cases repOf p <;> rfl

/-- A prefix byte executed after others records what all of them record (R104). -/
theorem exec_prefix {p : Instr} (h : p.isPrefix = true) {s : State} {ps : List Instr} (hs : s.pfx = collected ps) :
    exec p s = .next { s with pfx := collected (ps ++ [p]) } := by
  rw [collected_concat, ← hs]
  cases p with
  | segEs | segCs | segSs | segDs | lock | repne | rep => rfl
  | _ => exact nomatch h

/-! ## A row of prefix bytes -/

/-- The instruction whose first byte is `k` bytes after IP, and its length. -/
def State.instrAt (s : State) (k : Nat) : Instr × Nat :=
  decode s.cfg.isaLevel fun j => s.readByte (s.sreg .cs) (s.ip + BitVec.ofNat 16 (k + j))

/-- The first `n` bytes from IP on, each decoded. -/
def State.rowsAt (s : State) (n : Nat) : List Instr := (List.range n).map fun k => (s.instrAt k).1

/-- The pass that began in `s` after `n` prefix bytes (R142). -/
def State.afterPrefixes (s : State) (n : Nat) : State :=
  { s.leaveIdle with pfx := collected (s.rowsAt n), ip := s.ip + BitVec.ofNat 16 n }

theorem afterPrefixes_zero (s : State) : s.afterPrefixes 0 = s.leaveIdle := by
  simp [State.afterPrefixes, State.rowsAt, State.leaveIdle]

/-- After `n` prefix bytes the next instruction is fetched `n` bytes after IP. -/
theorem decodeNext_afterPrefixes (s : State) (n : Nat) : (s.afterPrefixes n).decodeNext = s.instrAt n := by
  unfold State.instrAt
  simp only [BitVec.ofNat_add, ← BitVec.add_assoc]
  rfl

/-- Dispatch after `n` prefix bytes of an instruction of `m` bytes (R145, R146). -/
theorem toDispatch_afterPrefixes (s : State) (n m : Nat) : (s.afterPrefixes n).toDispatch m =
    { s with cs0 := s.sreg .cs, ip0 := s.ip, pfx := collected (s.rowsAt n), driver := .dispatch
             ip := s.ip + BitVec.ofNat 16 (n + m) } := by
  rw [BitVec.ofNat_add, ← BitVec.add_assoc]
  rfl

/-- One prefix byte more. -/
theorem exec_prefix_afterPrefixes (s : State) (n : Nat) (h : (s.instrAt n).1.isPrefix = true) :
    exec (s.instrAt n).1 ((s.afterPrefixes n).advance (s.instrAt n).2) = .next (s.afterPrefixes (n + 1)) := by
  have hlen : (s.instrAt n).2 = 1 := decode_length_of_isPrefix h
  have hrows : s.rowsAt (n + 1) = s.rowsAt n ++ [(s.instrAt n).1] := by simp [State.rowsAt, List.range_succ]
  rw [exec_prefix h rfl, hlen, ← hrows, State.afterPrefixes, State.afterPrefixes, BitVec.ofNat_add, ← BitVec.add_assoc]
  rfl

/-- A pass over `n` prefix bytes uses as many rounds (R142). -/
theorem runPass_prefixes (s : State) : ∀ n fuel, (∀ k < n, (s.instrAt k).1.isPrefix = true) →
    runPass (n + fuel) s.leaveIdle = runPass fuel (s.afterPrefixes n) := by
  intro n
  induction n with
  | zero => intro fuel _; rw [Nat.zero_add, afterPrefixes_zero]
  | succ n ih =>
    intro fuel h
    rw [Nat.add_assoc, Nat.add_comm 1, ih _ fun k hk => h k (by omega)]
    exact runPass_prefix fuel (decodeNext_afterPrefixes s n) (h n (by omega))
      (exec_prefix_afterPrefixes s n (h n (by omega)))

/-! ## The pass (R140, R144) -/

/-- A segment of prefix bytes alone never ends the pass (R144, R584). -/
theorem pass_of_all_prefixes {s : State} (h : ∀ k < 65536, (s.instrAt k).1.isPrefix = true) :
    s.pass = .fault .endlessPrefixes := by
  unfold State.pass
  rw [show runPass 65536 s.leaveIdle = .fault .endlessPrefixes from runPass_prefixes s 65536 0 h]

/-- Fewer prefix bytes, and an instruction executed with what they recorded (R142 to R148). -/
theorem pass_of_prefixes {s t : State} {n : Nat} (hn : n < 65536) (h : ∀ k < n, (s.instrAt k).1.isPrefix = true)
    (hi : (s.instrAt n).1.isPrefix = false)
    (he : exec (s.instrAt n).1 ((s.afterPrefixes n).toDispatch (s.instrAt n).2) = .next t) :
    s.pass = .next (t.endPass s.flags.tf) := by
  have hrun : runPass 65536 s.leaveIdle = .next t :=
    calc runPass 65536 s.leaveIdle
      _ = runPass (n + (65535 - n + 1)) s.leaveIdle := by rw [show n + (65535 - n + 1) = 65536 by omega]
      _ = runPass (65535 - n + 1) (s.afterPrefixes n) := runPass_prefixes s n _ h
      _ = exec (s.instrAt n).1 ((s.afterPrefixes n).toDispatch (s.instrAt n).2) :=
        runPass_dispatch _ (decodeNext_afterPrefixes s n) hi
      _ = .next t := he
  unfold State.pass
  rw [hrun]

/-- A pass ends unless the whole segment is prefix bytes: the first other byte begins an instruction, which completes. -/
theorem pass_ends_of_not_prefix {s : State} (h : ∃ k < 65536, (s.instrAt k).1.isPrefix = false) :
    ∃ t, s.pass = .next t := by
  obtain ⟨hn, hi⟩ := Nat.find_spec h
  have hbefore : ∀ k < Nat.find h, (s.instrAt k).1.isPrefix = true := fun k hk =>
    Bool.of_not_eq_false fun hf => Nat.find_min h hk ⟨hk.trans hn, hf⟩
  obtain ⟨f, hf⟩ := exec_completes (s.instrAt (Nat.find h)).1
  exact ⟨_, pass_of_prefixes hn hbefore hi (hf.run _)⟩

/-- The 65536 positions from IP on are all offsets of the segment. -/
theorem all_instrAt_isPrefix_iff (s : State) : (∀ k < 65536, (s.instrAt k).1.isPrefix = true) ↔
    ∀ off, s.readByte (s.sreg .cs) off ∈ prefixBytes := by
  simp only [State.instrAt, decode_isPrefix_iff, Nat.add_zero]
  refine ⟨fun h off => ?_, fun h k _ => h _⟩
  have := h (off - s.ip).toNat (off - s.ip).isLt
  rwa [BitVec.ofNat_toNat, BitVec.setWidth_eq, BitVec.add_comm, BitVec.sub_add_cancel] at this

/-- A step that is neither in Fault nor Halted is a pass (R153). -/
theorem step_eq_pass {s : State} (hf : s.driver ≠ .fault) (hh : s.driver ≠ .halted) : step s = s.pass := by
  unfold step
  split
  · exact absurd ‹_› hf
  · exact absurd ‹_› hh
  all_goals rfl

theorem step_of_fault {s : State} (h : s.driver = .fault) : step s = .next s := by simp only [step, h]

theorem step_of_halted {s : State} (h : s.driver = .halted) : step s = .next s.checkHardInt := by simp only [step, h]

end Sys2Proof.Machine

open Sys2Proof Sys2Proof.Machine Sys2Proof.Claims

/-- Settles O10: the prefix bytes of the list are the rows decoded at IP, and a pass collects those. -/
theorem prefixBytesAreCollected : Obligations.PrefixBytesAreCollected := by
  unfold Obligations.PrefixBytesAreCollected
  intro s t ps i n hidle hlen hprefix hrows hdec hi he
  replace hrows : ∀ k (h : k < ps.length), (s.instrAt k).1 = ps[k] := hrows
  replace hdec : s.instrAt ps.length = (i, n) := hdec
  have hps : s.rowsAt ps.length = ps :=
    List.ext_getElem (by simp [State.rowsAt]) fun k _ h => by simpa [State.rowsAt] using hrows k h
  rw [step_eq_pass (by simp [hidle]) (by simp [hidle])]
  refine pass_of_prefixes hlen (fun k h => hrows k h ▸ hprefix _ (List.getElem_mem h)) (by rwa [hdec]) ?_
  rw [hdec, toDispatch_afterPrefixes, hps]
  exact he

/-- Settles O9: the case of no prefix byte. -/
theorem stepRunsDecodedInstruction : Obligations.StepRunsDecodedInstruction := by
  unfold Obligations.StepRunsDecodedInstruction
  intro s t i n hidle hdec hi he
  exact prefixBytesAreCollected s t [] i n hidle (by decide) (fun _ h => nomatch h) (fun _ h => nomatch h)
    (by simpa using hdec) hi (by simpa using he)

/-- Settles O11: in Fault and Halted a step ends, and a pass does unless all positions hold prefix bytes. -/
theorem onlyEndlessPrefixesStop : Obligations.OnlyEndlessPrefixesStop := by
  unfold Obligations.OnlyEndlessPrefixesStop
  intro s
  by_cases hf : s.driver = .fault
  · simp [step_of_fault hf, hf]
  by_cases hh : s.driver = .halted
  · simp [step_of_halted hh, hh]
  rw [step_eq_pass hf hh, ← all_instrAt_isPrefix_iff]
  by_cases hall : ∀ k < 65536, (s.instrAt k).1.isPrefix = true
  · exact ⟨⟨fun _ => ⟨hf, hh, hall⟩, fun _ => pass_of_all_prefixes hall⟩, .inl (pass_of_all_prefixes hall)⟩
  · obtain ⟨t, ht⟩ := pass_ends_of_not_prefix (s := s) (by simpa using hall)
    exact ⟨⟨fun h => (nomatch ht.symm.trans h), fun h => absurd h.2.2 hall⟩, .inr ⟨t, ht⟩⟩
end

section
/-! PROOFS. A faulting pass (R150, R151), a pass in Fault or in Halted (R152), and the end of a pass (R148). -/

namespace Sys2Proof.Machine

open Sys2Proof Sys2Proof.Claims

/-! ## The fault sequence (R150, R151) -/

/-- The fault sequence under both policies, as one record. -/
theorem takeFault_eq (s : State) (r : DiagRecord) : s.takeFault r = { s with
    diag := s.diag ++ [r], pfx := PrefixState.empty
    driver := if s.cfg.faultPolicy = .halt then .fault else .idle
    ip := if s.cfg.faultPolicy = .halt then s.ip0 else s.ip } := by
  unfold State.takeFault
  split <;> simp [*]

/-- After a fault nothing is left for the end of the pass: no interrupt is looked at (R150, R151). -/
theorem endPass_takeFault (s : State) (r : DiagRecord) (tf0 : Bool) : (s.takeFault r).endPass tf0 = s.takeFault r := by
  unfold State.takeFault
  split <;> rfl

/-- A fault row changes what the fault sequence changes, and nothing else. -/
theorem takeFault_frame (s : State) (r : DiagRecord) :
    (s.takeFault r).pfx = PrefixState.empty ∧
    (s.cfg.faultPolicy = .halt → (s.takeFault r).driver = .fault ∧ (s.takeFault r).ip = s.ip0) ∧
    (s.cfg.faultPolicy = .skip → (s.takeFault r).driver = .idle ∧ (s.takeFault r).ip = s.ip) ∧
    (s.takeFault r).sregs = s.sregs ∧ (s.takeFault r).flags = s.flags ∧ WritesNothing s (s.takeFault r) ∧
    (s.takeFault r).pending = s.pending ∧ (s.takeFault r).intTable = s.intTable ∧
    (s.takeFault r).portTable = s.portTable ∧ (s.takeFault r).cfg = s.cfg := by
  rw [takeFault_eq]
  exact ⟨rfl, fun h => by simp [h], fun h => by simp [h], rfl, rfl, ⟨fun _ _ => rfl, fun _ _ _ => rfl⟩, rfl, rfl, rfl, rfl⟩

/-- A step on a fault row is the fault sequence, with IP after the row's bytes. -/
theorem step_of_faultRow {s : State} {i : Instr} {n : Nat} {r : DiagRecord} (hidle : s.driver = .idle)
    (hdec : decode s.cfg.isaLevel (fun k => s.readByte (s.sreg .cs) (s.ip + BitVec.ofNat 16 k)) = (i, n))
    (hi : i.isPrefix = false)
    (he : ∀ u : State, u.cs0 = s.sreg .cs → u.ip0 = s.ip → exec i u = .next (u.takeFault r)) :
    step s = .next { s with
      cs0 := s.sreg .cs, ip0 := s.ip, pfx := PrefixState.empty, diag := s.diag ++ [r]
      driver := if s.cfg.faultPolicy = .halt then .fault else .idle
      ip := if s.cfg.faultPolicy = .halt then s.ip else s.ip + BitVec.ofNat 16 (encode i).length } := by
  have hlen := decode_length s.cfg.isaLevel fun k => s.readByte (s.sreg .cs) (s.ip + BitVec.ofNat 16 k)
  rw [hdec] at hlen
  rw [stepRunsDecodedInstruction s _ i n hidle hdec hi (he _ rfl rfl), endPass_takeFault, takeFault_eq, ← hlen]

/-! ## The check for a hardware interrupt (R531) -/

/-- A pending interrupt is taken where IF is 1 or does not gate it; Halted is left. -/
theorem checkHardInt_of_serviced {s : State} {n : Byte} (hn : s.pending = some n)
    (hg : s.flags.iflag = true ∨ s.cfg.hardintGatedByIf = false) :
    s.checkHardInt = { ({ s with pending := none } : State).raiseInterrupt n with driver := .idle } := by
  have hgate : (s.flags.iflag || !s.cfg.hardintGatedByIf) = true := by simpa using hg
  simp only [State.checkHardInt, hn, hgate, if_true]

/-- Nothing happens where none is pending or IF gates it off. -/
theorem checkHardInt_of_not_serviced {s : State}
    (h : s.pending = none ∨ (s.flags.iflag = false ∧ s.cfg.hardintGatedByIf = true)) : s.checkHardInt = s := by
  unfold State.checkHardInt
  split
  · rfl
  · next n hn =>
    obtain ⟨hif, hgate⟩ := h.resolve_left (by simp [hn])
    simp [hif, hgate]

/-! ## The end of a pass (R148) -/

/-- The state of an instruction boundary after the single-step interrupt, Prefix State empty (R147, R533). -/
def State.singleStepped (tf0 : Bool) (s : State) : State :=
  if s.cfg.tfSingleStep = true ∧ tf0 = true
  then ({ s with pfx := PrefixState.empty } : State).raiseInterrupt 1#8 else { s with pfx := PrefixState.empty }

theorem kept_singleStepped (tf0 : Bool) (s : State) :
    Kept ({ s with pfx := PrefixState.empty } : State) (s.singleStepped tf0) := by
  unfold State.singleStepped
  split
  · exact kept_raiseInterrupt _ _
  · exact Kept.refl _

theorem boundary_eq (tf0 : Bool) (s : State) :
    ({ s with pfx := PrefixState.empty } : State).boundary tf0 = (s.singleStepped tf0).checkHardInt := by
  simp [State.boundary, State.singleStepped]

theorem endPass_of_dispatch {s : State} (h : s.driver = .dispatch) (tf0 : Bool) :
    s.endPass tf0 = { (s.singleStepped tf0).checkHardInt with driver := .idle } := by
  rw [← boundary_eq]
  simp only [State.endPass, h]

theorem endPass_of_halted {s : State} (h : s.driver = .halted) (tf0 : Bool) :
    s.endPass tf0 = (s.singleStepped tf0).checkHardInt := by
  rw [← boundary_eq]
  simp only [State.endPass, h]

end Sys2Proof.Machine

open Sys2Proof Sys2Proof.Machine Sys2Proof.Claims

/-- Settles O12: a step on a fault row, and the frame of the fault sequence. -/
theorem faultedPassAndFaultRows : Obligations.FaultedPassAndFaultRows := by
  unfold Obligations.FaultedPassAndFaultRows
  constructor
  · intro s op m n hidle
    exact ⟨fun hdec => step_of_faultRow hidle hdec rfl fun u hcs hip => by rw [← hcs, ← hip]; rfl,
      fun hdec => step_of_faultRow hidle hdec rfl fun u hcs hip => by rw [← hcs, ← hip]; rfl⟩
  · intro s op m
    refine ⟨_, _, rfl, rfl, by rw [takeFault_eq], by rw [takeFault_eq], ?_⟩
    simp only [List.forall_mem_cons, List.not_mem_nil, false_implies, implies_true, and_true]
    exact ⟨takeFault_frame _ _, takeFault_frame _ _⟩

/-- Settles O13, from what the check for a hardware interrupt does. -/
theorem faultAndHaltedPasses : Obligations.FaultAndHaltedPasses := by
  unfold Obligations.FaultAndHaltedPasses
  refine fun s => ⟨step_of_fault, fun h hp => ?_, fun h hif hgate => ?_, fun n h hn hg => ?_⟩ <;> rw [step_of_halted h]
  · rw [checkHardInt_of_not_serviced (.inl hp)]
  · rw [checkHardInt_of_not_serviced (.inr ⟨hif, hgate⟩)]
  · rw [checkHardInt_of_serviced hn hg]

/-- Settles O14: the driver state and the parameters are the same after the single-step interrupt. -/
theorem endOfPassOrder : Obligations.EndOfPassOrder := by
  unfold Obligations.EndOfPassOrder
  intro s tf0 hd
  have k := kept_singleStepped tf0 s
  refine ⟨s.singleStepped tf0, rfl, fun n hn hg => ?_, fun h => ?_⟩
  · have hc := checkHardInt_of_serviced hn (k.cfg ▸ hg)
    rcases hd with hd | hd
    · rw [endPass_of_dispatch hd, hc]
    · rw [endPass_of_halted hd, hc]
  · have hc := checkHardInt_of_not_serviced (k.cfg ▸ h)
    rcases hd with hd | hd
    · rw [endPass_of_dispatch hd, hc, if_neg (by simp [hd])]
    · rw [endPass_of_halted hd, hc, if_pos hd, ← hd]
      exact k.driver ▸ rfl
end

section
/-! PROOFS. What one operand write, one push and one pop do, as the data transfer instructions use them (R175, R176), and the
frames that a segment register write and a memory write leave. -/

namespace Sys2Proof.Claims

open Sys2Proof Sys2Proof.Machine

/-! ## Frames -/

/-- The bytes outside a written word read as before (R65). -/
theorem memSameBut_writeWord (s : State) (sg off v : Word) : MemSameBut s (s.writeWord sg off v) (wordAt sg off) :=
  fun _ _ => readByte_writeWord_frame s v

/-- The bytes outside a written byte read as before (R63). -/
theorem memSameBut_writeByte (s : State) (sg off : Word) (v : Byte) :
    MemSameBut s (s.writeByte sg off v) [phys sg off] :=
  fun _ _ h => readByte_writeByte_ne s v (by simpa using h)

/-- A segment register written after data moved: that register, and control state and IP as before (R205, R211, R218). -/
theorem OnlyData.setSReg {s t : State} (h : OnlyData s t) (r : SReg) (v : Word) :
    (t.setSReg r v).sreg r = v ∧ SRegsSameBut s (t.setSReg r v) [r] ∧ (t.setSReg r v).ip = s.ip ∧
      ControlSame s (t.setSReg r v) := by
  obtain ⟨hsregs, hip, hcontrol⟩ := h
  refine ⟨by simp [State.sreg_setSReg], fun r1 hr => ?_, hip, hcontrol⟩
  have hne : r ≠ r1 := by simpa [eq_comm] using hr
  rw [State.sreg_setSReg, if_neg hne, State.sreg, hsregs]
  rfl

/-! ## One operand written -/

/-- A byte moved to an operand: the operand holds it, and nothing else changes (R166). -/
theorem writeOp8_moves (s : State) (x : RM8) (v : Byte) :
    OnlyData s (s.writeOp8 (s.resolve x) v) ∧ (s.writeOp8 (s.resolve x) v).flags = s.flags ∧
      Writes8 s (s.writeOp8 (s.resolve x) v) x v :=
  ⟨by simp [OnlyData, ControlSame], by simp, writes8_writeOp8 s x v⟩

/-- A word moved to an operand: the operand holds it, and nothing else changes (R166). -/
theorem writeOp16_moves (s : State) (x : RM16) (v : Word) :
    OnlyData s (s.writeOp16 (s.resolve x) v) ∧ (s.writeOp16 (s.resolve x) v).flags = s.flags ∧
      Writes16 s (s.writeOp16 (s.resolve x) v) x v :=
  ⟨by simp [OnlyData, ControlSame], by simp, writes16_writeOp16 s x v⟩

/-- A word register and then a segment register loaded (R218, R219). -/
theorem loadsPair (s : State) (r : Reg16) (sr : SReg) (off sg : Word) :
    Writes16 s ((s.setReg16 r off).setSReg sr sg) (.reg r) off ∧ ((s.setReg16 r off).setSReg sr sg).sreg sr = sg ∧
      SRegsSameBut s ((s.setReg16 r off).setSReg sr sg) [sr] ∧ ((s.setReg16 r off).setSReg sr sg).ip = s.ip ∧
      ((s.setReg16 r off).setSReg sr sg).flags = s.flags ∧ ControlSame s ((s.setReg16 r off).setSReg sr sg) := by
  obtain ⟨hdata, hflags, hwrites⟩ := writeOp16_moves s (.reg r) off
  obtain ⟨hsr, hsame, hip, hcontrol⟩ := hdata.setSReg sr sg
  exact ⟨hwrites.congr rfl rfl, hsr, hsame, hip, hflags, hcontrol⟩

/-- A byte widened with zeros is its number as a word. -/
theorem zext16_eq_ofNat (b : Byte) : zext16 b = BitVec.ofNat 16 b.toNat := (BitVec.ofNat_toNat 16 b).symm

/-! ## One push -/

/-- A push moves data only and does what `Pushed` says (R175). -/
theorem push16_moves (s : State) (v : Word) :
    OnlyData s (s.push16 v) ∧ (s.push16 v).flags = s.flags ∧ Pushed s (s.push16 v) v :=
  ⟨by simp [OnlyData, ControlSame], rfl, pushed_push16 s v⟩

/-- What PUSH pushes of a register (R206). -/
theorem pushValue_reg (s : State) (r : Reg16) :
    pushValue s (.reg r) = if r = .sp then s.reg16 .sp - 2#16 else s.reg16 r := by
  simp only [pushValue, RM.reg.injEq]
  rfl

/-! ## One pop -/

/-- `Pop16` answers the word on top of the stack (R176). -/
theorem pop16_value (s : State) : s.pop16.1 = stackWord s 0 := by simp [State.pop16, stackWord]

/-- `Pop16` moves SP and nothing else (R176). -/
theorem pop16_moves (s : State) : OnlyData s s.pop16.2 ∧ s.pop16.2.reg16 .sp = s.reg16 .sp + 2#16 ∧
    RegsSameBut s s.pop16.2 [.sp] ∧ MemSameBut s s.pop16.2 [] := by
  obtain ⟨hdata, -, hsp, hregs, hmem⟩ := writeOp16_moves s (.reg .sp) (s.reg16 .sp + 2#16)
  exact ⟨hdata, hsp, hregs, hmem⟩

/-- A word popped into a register: where that is SP, the word replaces the moved SP (R209). -/
theorem popInto_moves (s : State) (r : Reg16) : OnlyData s (s.popInto r) ∧ (s.popInto r).flags = s.flags ∧
    (s.popInto r).reg16 r = stackWord s 0 ∧ (r ≠ .sp → (s.popInto r).reg16 .sp = s.reg16 .sp + 2#16) ∧
    RegsSameBut s (s.popInto r) [r, .sp] ∧ MemSameBut s (s.popInto r) [] := by
  obtain ⟨hdata, hsp, hregs, hmem⟩ := pop16_moves s
  obtain ⟨-, -, hr, hframe, -⟩ := writeOp16_moves s.pop16.2 (.reg r) s.pop16.1
  refine ⟨hdata, rfl, hr.trans (pop16_value s), fun hne => ?_, fun q hq => ?_, hmem⟩
  · exact (hframe .sp (by simpa using hne.symm)).trans hsp
  · obtain ⟨hqr, hqsp⟩ : q ≠ r ∧ q ≠ .sp := by simpa using hq
    exact (hframe q (by simpa using hqr)).trans (hregs q (by simpa using hqsp))

/-! ## Two operands exchanged -/

/-- Only a register operand is resolved to a register. -/
@[simp] theorem resolve_eq_reg {ρ : Type} (s : State) (x : RM ρ) (r : ρ) : s.resolve x = .reg r ↔ x = .reg r := by
  cases x <;> simp [State.resolve]

/-- A byte operand write leaves every byte register but the operand. -/
theorem reg8_writeOp8_ne (s : State) {x : Loc Reg8} {r : Reg8} (v : Byte) (h : x ≠ .reg r) :
    (s.writeOp8 x v).reg8 r = s.reg8 r := by
  cases x with
  | reg q => exact (State.reg8_setReg8 s q v r).trans (if_neg fun e : q = r => h (e ▸ rfl))
  | mem sg ea => rfl

/-- A word operand write leaves every word register but the operand. -/
theorem reg16_writeOp16_ne (s : State) {x : Loc Reg16} {r : Reg16} (v : Word) (h : x ≠ .reg r) :
    (s.writeOp16 x v).reg16 r = s.reg16 r := by
  cases x with
  | reg q => exact (State.reg16_setReg16 s q v r).trans (if_neg fun e : q = r => h (e ▸ rfl))
  | mem sg ea => rfl

/-- The parent of a byte register is none of SP, BP, SI, DI (R24). -/
theorem ne_parent_of_index {q : Reg16} (h : q = .sp ∨ q = .bp ∨ q = .si ∨ q = .di) (r : Reg8) : q ≠ parent r := by
  rcases h with rfl | rfl | rfl | rfl <;> cases r <;> decide

/-- A byte operand write leaves SP, BP, SI and DI. -/
theorem reg16_writeOp8_index (s : State) (x : Loc Reg8) (v : Byte) {q : Reg16}
    (h : q = .sp ∨ q = .bp ∨ q = .si ∨ q = .di) : (s.writeOp8 x v).reg16 q = s.reg16 q := by
  cases x with
  | reg r => exact getReg16_setReg8_ne _ _ (ne_parent_of_index h r)
  | mem sg ea => rfl

/-- XCHG of a byte register and an operand (R212). -/
theorem xchg8_swaps (s : State) (r : Reg8) (x : RM8) :
    ∃ t, exec (.xchgRm (.reg8Rm8 r x)) s = .next t ∧ OnlyData s t ∧ t.flags = s.flags ∧
      t.reg8 r = s.readRM8 x ∧ t.readOp8 (s.resolve x) = s.reg8 r ∧
      (∀ r1, r1 ≠ r → x ≠ .reg r1 → t.reg8 r1 = s.reg8 r1) ∧
      (∀ r1 : Reg16, r1 = .sp ∨ r1 = .bp ∨ r1 = .si ∨ r1 = .di → t.reg16 r1 = s.reg16 r1) ∧
      (∀ r1, x = .reg r1 → MemSameBut s t []) ∧
      (∀ m, x = .mem m → MemSameBut s t [phys (s.memSeg m) (s.ea m)]) := by
  refine ⟨_, rfl, by simp [OnlyData, ControlSame], by simp, ?_, State.readOp8_writeOp8 _ _ _, fun q hq hx => ?_,
    fun q hq => ?_, fun q hx => ?_, fun m hx => ?_⟩
  · by_cases hx : x = .reg r
    · subst hx
      exact State.readOp8_writeOp8 _ (.reg r) _
    · rw [reg8_writeOp8_ne _ _ (by simpa using hx), State.reg8_setReg8, if_pos rfl]
  · rw [reg8_writeOp8_ne _ _ (by simpa using hx), State.reg8_setReg8, if_neg hq.symm]
  · rw [reg16_writeOp8_index _ _ _ hq]
    exact reg16_writeOp8_index s (.reg r) _ hq
  · subst hx
    exact .of_mem rfl _
  · subst hx
    exact memSameBut_writeByte (s.setReg8 r _) _ _ _

/-- XCHG of a word register and an operand (R212). -/
theorem xchg16_swaps (s : State) (r : Reg16) (x : RM16) :
    ∃ t, exec (.xchgRm (.reg16Rm16 r x)) s = .next t ∧ OnlyData s t ∧ t.flags = s.flags ∧
      t.reg16 r = s.readRM16 x ∧ t.readOp16 (s.resolve x) = s.reg16 r ∧
      (∀ r1, r1 ≠ r → x ≠ .reg r1 → t.reg16 r1 = s.reg16 r1) ∧
      (∀ r1, x = .reg r1 → MemSameBut s t []) ∧
      (∀ m, x = .mem m → MemSameBut s t (wordAt (s.memSeg m) (s.ea m))) := by
  refine ⟨_, rfl, by simp [OnlyData, ControlSame], by simp, ?_, State.readOp16_writeOp16 _ _ _, fun q hq hx => ?_,
    fun q hx => ?_, fun m hx => ?_⟩
  · by_cases hx : x = .reg r
    · subst hx
      exact State.readOp16_writeOp16 _ (.reg r) _
    · rw [reg16_writeOp16_ne _ _ (by simpa using hx), State.reg16_setReg16, if_pos rfl]
  · rw [reg16_writeOp16_ne _ _ (by simpa using hx), State.reg16_setReg16, if_neg hq.symm]
  · subst hx
    exact .of_mem rfl _
  · subst hx
    exact memSameBut_writeWord (s.setReg16 r _) _ _ _

/-- XCHG with AX is XCHG of AX and that register (R213). -/
theorem exec_xchgAx (s : State) (r : Reg16) :
    exec (.xchgAx r) s = exec (.xchgRm (.reg16Rm16 .ax (.reg r))) s := rfl

/-! ## The flag byte -/

/-- The low byte of the image of the flags (R30). -/
theorem loByte_image (f : Flags) : loByte f.image = BitVec.ofBool f.sf ++ BitVec.ofBool f.zf ++ 0#1 ++
    BitVec.ofBool f.af ++ 0#1 ++ BitVec.ofBool f.pf ++ 1#1 ++ BitVec.ofBool f.cf := by
  refine BitVec.eq_of_getLsbD_eq fun i hi => ?_
  rw [loByte, BitVec.getLsbD_extractLsb', Nat.zero_add, image_bits f (by omega)]
  interval_cases i <;> simp only [BitVec.getLsbD_append] <;> simp

end Sys2Proof.Claims
end

section
/-! PROOFS. Port access (R75 to R77, R214, R215): on a port with no handler and on a port with one. -/

namespace Sys2Proof.Claims

open Sys2Proof Sys2Proof.Machine

/-! ## No handler (R524) -/

/-- An access to a port with no handler leaves at most one record (R524). -/
theorem noteUnmapped_port (s : State) (port : Word) : s.noteUnmapped [.port port] =
    { s with diag := if s.cfg.strictDiag = true then s.diag ++ [.unmappedPort s.cs0 s.ip0 port] else s.diag } := by
  unfold State.noteUnmapped
  split <;> rfl

section
variable {s : State} {port : Word}

theorem inByte_of_no_handler (h : s.readHandler port = none) : s.inByte port = { s.setReg8 .al s.cfg.portIdleByte with
    diag := if s.cfg.strictDiag = true then s.diag ++ [.unmappedPort s.cs0 s.ip0 port] else s.diag } := by
  simp only [State.inByte, State.portIn8, h, noteUnmapped_port]
  rfl

theorem inWord_of_no_handler (h : s.readHandler port = none) : s.inWord port = { s.setReg16 .ax s.cfg.portIdleWord with
    diag := if s.cfg.strictDiag = true then s.diag ++ [.unmappedPort s.cs0 s.ip0 port] else s.diag } := by
  simp only [State.inWord, State.portIn16, h, noteUnmapped_port]
  rfl

theorem portOut8_of_no_handler (h : s.writeHandler port = none) (v : Byte) : s.portOut8 port v = { s with
    diag := if s.cfg.strictDiag = true then s.diag ++ [.unmappedPort s.cs0 s.ip0 port] else s.diag } := by
  simp only [State.portOut8, h, noteUnmapped_port]

theorem portOut16_of_no_handler (h : s.writeHandler port = none) (v : Word) : s.portOut16 port v = { s with
    diag := if s.cfg.strictDiag = true then s.diag ++ [.unmappedPort s.cs0 s.ip0 port] else s.diag } := by
  simp only [State.portOut16, h, noteUnmapped_port]

/-! ## A handler (R75 to R77) -/

variable {id : Nat}

theorem inByte_of_handler (h : s.readHandler port = some id) : s.inByte port =
    (s.applyPortEffect (hostPortRead id port .byte s).2).setReg8 .al (loByte (hostPortRead id port .byte s).1) := by
  simp only [State.inByte, State.portIn8, h]

theorem inWord_of_handler (h : s.readHandler port = some id) : s.inWord port =
    (s.applyPortEffect (hostPortRead id port .word s).2).setReg16 .ax (hostPortRead id port .word s).1 := by
  simp only [State.inWord, State.portIn16, h]

theorem portOut8_of_handler (h : s.writeHandler port = some id) (v : Byte) : s.portOut8 port v =
    s.applyPortEffect (hostPortWrite id port .byte (zext16 v) s) := by
  simp only [State.portOut8, h]

theorem portOut16_of_handler (h : s.writeHandler port = some id) (v : Word) : s.portOut16 port v =
    s.applyPortEffect (hostPortWrite id port .word v s) := by
  simp only [State.portOut16, h]

/-- A byte from a port with a handler: AL, and what the handler may change (R77, R214). -/
theorem inByte_frame (h : s.readHandler port = some id) :
    ∃ t, Host.Outcome.next (s.inByte port) = (.next t : Result) ∧ t.sregs = s.sregs ∧ t.ip = s.ip ∧ t.flags = s.flags ∧
      t.pfx = s.pfx ∧ t.driver = s.driver ∧ t.intTable = s.intTable ∧ t.portTable = s.portTable ∧ t.diag = s.diag ∧
      t.cfg = s.cfg ∧ RegsSameBut s t [.ax] ∧
      t.reg8 .al = (hostPortRead id port .byte s).1.extractLsb' 0 8 ∧ t.reg8 .ah = s.reg8 .ah ∧
      t.mem = applyWrites s.mem (hostPortRead id port .byte s).2.writes ∧
      t.pending = (hostPortRead id port .byte s).2.pending := by
  obtain ⟨hal, hother, hregs, -⟩ := writes8_writeOp8 (s.applyPortEffect (hostPortRead id port .byte s).2) (.reg .al)
    (loByte (hostPortRead id port .byte s).1)
  exact ⟨_, congrArg _ (inByte_of_handler h), rfl, rfl, rfl, rfl, rfl, rfl, rfl, rfl, rfl, hregs, hal,
    hother .ah (by decide), rfl, rfl⟩

/-- A word from a port with a handler: AX, and what the handler may change (R77, R214). -/
theorem inWord_frame (h : s.readHandler port = some id) :
    ∃ t, Host.Outcome.next (s.inWord port) = (.next t : Result) ∧ t.sregs = s.sregs ∧ t.ip = s.ip ∧ t.flags = s.flags ∧
      t.pfx = s.pfx ∧ t.driver = s.driver ∧ t.intTable = s.intTable ∧ t.portTable = s.portTable ∧ t.diag = s.diag ∧
      t.cfg = s.cfg ∧ RegsSameBut s t [.ax] ∧ t.reg16 .ax = (hostPortRead id port .word s).1 ∧
      t.mem = applyWrites s.mem (hostPortRead id port .word s).2.writes ∧
      t.pending = (hostPortRead id port .word s).2.pending := by
  obtain ⟨hax, hregs, -⟩ := writes16_writeOp16 (s.applyPortEffect (hostPortRead id port .word s).2) (.reg .ax)
    (hostPortRead id port .word s).1
  exact ⟨_, congrArg _ (inWord_of_handler h), rfl, rfl, rfl, rfl, rfl, rfl, rfl, rfl, rfl, hregs, hax, rfl, rfl⟩
end

/-- A port handler's effect: memory and the pending slot, and every register and flag as before (R77). -/
theorem applyPortEffect_frame {s u : State} {e : PortEffect} (h : u = s.applyPortEffect e) :
    ∃ (t : State) (e' : PortEffect), Host.Outcome.next u = (.next t : Result) ∧ e' = e ∧
      t.mem = applyWrites s.mem e'.writes ∧ t.pending = e'.pending ∧
      t.regs = s.regs ∧ t.sregs = s.sregs ∧ t.ip = s.ip ∧ t.flags = s.flags ∧
      t.pfx = s.pfx ∧ t.driver = s.driver ∧ t.intTable = s.intTable ∧ t.portTable = s.portTable ∧ t.diag = s.diag ∧
      t.cfg = s.cfg :=
  ⟨_, _, congrArg _ h, rfl, rfl, rfl, rfl, rfl, rfl, rfl, rfl, rfl, rfl, rfl, rfl, rfl⟩

end Sys2Proof.Claims
end

section
/-! PROOFS. The obligations of `41_data_transfer.md`. -/

open Sys2Proof Sys2Proof.Machine Sys2Proof.Claims

/-- Settles O23: every form writes one operand; a direct offset is the memory operand with that direct address. -/
theorem movMovesItsOperand : Obligations.MovMovesItsOperand := by
  unfold Obligations.MovMovesItsOperand
  refine ⟨fun s => ⟨fun x r => ?_, fun x r => ?_, fun r x => ?_, fun r x => ?_, fun x i => ?_, fun x i => ?_,
    fun r i => ?_, fun r i => ?_⟩, fun s off => ⟨?_, ?_, ?_, ?_, ?_⟩⟩
  · exact ⟨_, rfl, writeOp8_moves s x _⟩
  · exact ⟨_, rfl, writeOp16_moves s x _⟩
  · exact ⟨_, rfl, writeOp8_moves s (.reg r) _⟩
  · exact ⟨_, rfl, writeOp16_moves s (.reg r) _⟩
  · exact ⟨_, rfl, writeOp8_moves s x i⟩
  · exact ⟨_, rfl, writeOp16_moves s x i⟩
  · exact ⟨_, rfl, writeOp8_moves s (.reg r) i⟩
  · exact ⟨_, rfl, writeOp16_moves s (.reg r) i⟩
  · exact ⟨_, rfl, writeOp8_moves s (.reg .al) _⟩
  · exact ⟨_, rfl, writeOp16_moves s (.reg .ax) _⟩
  · exact ⟨_, rfl, writeOp8_moves s (.mem (.direct off)) (s.reg8 .al)⟩
  · exact ⟨_, rfl, writeOp16_moves s (.mem (.direct off)) (s.reg16 .ax)⟩
  · rw [← zext16_eq_ofNat]
    exact ⟨_, rfl, writeOp8_moves s (.reg .al) _⟩

/-- Settles O24: LDS and LES load a pair, whichever the segment register. -/
theorem segmentAndAddressLoads : Obligations.SegmentAndAddressLoads := by
  unfold Obligations.SegmentAndAddressLoads
  refine ⟨fun s x sr => ⟨?_, ?_⟩, fun s r m => ⟨?_, ?_, ?_⟩⟩
  · exact ⟨_, rfl, writeOp16_moves s x _⟩
  · obtain ⟨hsr, hsame, hip, hcontrol⟩ := (onlyData_refl s).setSReg sr (s.readRM16 x)
    exact ⟨_, rfl, hsr, hsame, hip, rfl, ⟨.of_regs rfl _, .of_mem rfl _⟩, hcontrol⟩
  · exact ⟨_, rfl, writeOp16_moves s (.reg r) _⟩
  · exact ⟨_, rfl, loadsPair s r .ds _ _⟩
  · exact ⟨_, rfl, loadsPair s r .es _ _⟩

/-- Settles O25: every form is one push of its value. -/
theorem pushStoresOneWord : Obligations.PushStoresOneWord := by
  unfold Obligations.PushStoresOneWord
  refine fun s => ⟨fun r => ?_, fun x => ?_, fun sr => ?_, ?_, fun i => ?_, fun i => ?_⟩
  · rw [← pushValue_reg]
    exact ⟨_, rfl, push16_moves s _⟩
  · exact ⟨_, rfl, push16_moves s (pushValue s x)⟩
  · exact ⟨_, rfl, push16_moves s _⟩
  · exact ⟨_, rfl, push16_moves s _⟩
  · exact ⟨_, rfl, push16_moves s i⟩
  · exact ⟨_, rfl, push16_moves s (sext16 i)⟩

/-- Settles O26: one pop, and then the write of a register, of a word of memory, of a segment register or of the flags. -/
theorem popLoadsOneWord : Obligations.PopLoadsOneWord := by
  unfold Obligations.PopLoadsOneWord
  intro s
  obtain ⟨hdata, hsp, hregs, hmem⟩ := pop16_moves s
  refine ⟨fun r => ⟨_, rfl, popInto_moves s r⟩, fun r => ⟨_, rfl, popInto_moves s r⟩, fun m => ?_, fun sr => ?_, ?_⟩
  · rw [← pop16_value]
    exact ⟨_, rfl, hdata, rfl, readWord_writeWord_same _ _ _ _, hsp, hregs, memSameBut_writeWord s.pop16.2 _ _ _⟩
  · obtain ⟨hsr, hsame, hip, hcontrol⟩ := hdata.setSReg sr s.pop16.1
    exact ⟨_, rfl, hsr.trans (pop16_value s), hsame, hip, rfl, hsp, hregs, hmem, hcontrol⟩
  · rw [← pop16_value]
    exact ⟨_, rfl, hdata, image_ofImage _, hsp, hregs, hmem⟩

/-- Settles O27: XCHG with AX is the word form with AX as the register. -/
theorem xchgSwaps : Obligations.XchgSwaps := by
  unfold Obligations.XchgSwaps
  refine fun s => ⟨xchg8_swaps s, xchg16_swaps s, fun r => ?_⟩
  rw [exec_xchgAx]
  obtain ⟨t, hexec, hdata, hflags, hax, hr, hregs, hmem, -⟩ := xchg16_swaps s .ax (.reg r)
  refine ⟨t, hexec, hdata, hflags, hax, hr, fun q hq => ?_, hmem r rfl⟩
  obtain ⟨hqax, hqr⟩ : q ≠ .ax ∧ q ≠ r := by simpa using hq
  exact hregs q hqax (by simpa using hqr.symm)

/-- Settles O28: AH is the low byte of the image of the flags, and back. -/
theorem flagByteTransfers : Obligations.FlagByteTransfers := by
  unfold Obligations.FlagByteTransfers
  intro s
  rw [← loByte_image]
  exact ⟨⟨_, rfl, writeOp8_moves s (.reg .ah) _⟩,
    _, rfl, by simp [OnlyData, ControlSame], ⟨.of_regs rfl _, .of_mem rfl _⟩, rfl⟩

/-- Settles O29: the four forms are a byte or a word, on a port with no handler and on a port with one. -/
theorem portAccess : Obligations.PortAccess := by
  unfold Obligations.PortAccess
  simp only [← zext16_eq_ofNat]
  refine ⟨fun s f port hport => ?_, fun s f port id hport => ?_⟩
  · cases f with
    | byteImm | byteDx =>
      subst hport
      exact ⟨fun h => congrArg Host.Outcome.next (inByte_of_no_handler h),
        fun h => congrArg Host.Outcome.next (portOut8_of_no_handler h _)⟩
    | wordImm | wordDx =>
      subst hport
      exact ⟨fun h => congrArg Host.Outcome.next (inWord_of_no_handler h),
        fun h => congrArg Host.Outcome.next (portOut16_of_no_handler h _)⟩
  · cases f with
    | byteImm | byteDx =>
      subst hport
      exact ⟨inByte_frame, fun h => applyPortEffect_frame (portOut8_of_handler h _)⟩
    | wordImm | wordDx =>
      subst hport
      exact ⟨inWord_frame, fun h => applyPortEffect_frame (portOut16_of_handler h _)⟩
end

section
/-! PROOFS. What follows from the results of addition and subtraction (R262, R263): the order that the flags of a subtraction
tell (R267), the carry of NEG (R277), and the flags of INC and DEC (R264). -/

namespace Sys2Proof.Claims

open Sys2Proof Sys2Proof.Machine

section
variable {w : Nat} {a b r : BitVec w} {f : Flags}

theorem AddResult.eq_add (h : AddResult a b false r f) : r = a + b := by
  obtain ⟨hr, -⟩ := h
  exact BitVec.eq_of_toNat_eq (by simpa using hr)

theorem SubResult.eq_sub (h : SubResult a b false r f) : r = a - b := by
  obtain ⟨hr, -⟩ := h
  have hr : (r.toNat : Int) = ((a.toNat : Int) - b.toNat) % (2 ^ w : Nat) := by simpa using hr
  refine BitVec.eq_of_toInt_eq ?_
  rw [BitVec.toInt_sub, BitVec.toInt_eq_toNat_bmod r, hr, Int.emod_bmod]
  simp [BitVec.toInt_eq_toNat_bmod]

/-! ## What the flags of a subtraction tell (R267) -/

/-- ZF tells that the operands are equal. -/
theorem SubResult.zf_iff (h : SubResult a b false r f) : f.zf = true ↔ a = b := by
  have hr := h.eq_sub
  obtain ⟨-, -, -, -, hzf, -⟩ := h
  rw [hzf, hr]
  exact sub_eq_zero

/-- CF tells that the first operand is below the second. -/
theorem SubResult.cf_iff (h : SubResult a b false r f) : f.cf = true ↔ a.toNat < b.toNat := h.2.1

/-- NEG sets CF but for an operand of 0 (R277). -/
theorem SubResult.cf_iff_ne_zero (h : SubResult 0 b false r f) : f.cf = true ↔ b ≠ 0 := by
  rw [h.cf_iff]
  exact (BitVec.toNat_pos b).trans (BitVec.pos_iff_ne_zero b)

/-- A signed number that fits in `w` bits is its own signed residue modulo `2 ^ w`. -/
theorem bmod_two_pow_of_fits (hw : 0 < w) {n : Int} (hlo : -2 ^ (w - 1) ≤ n) (hhi : n < 2 ^ (w - 1)) :
    n.bmod (2 ^ w) = n := by
  rw [← BitVec.toInt_ofInt, BitVec.toInt_ofInt_eq_self hw hlo hhi]

/-- SF and OF differ exactly when the first operand is less than the second as signed numbers: SF is the sign of the
difference modulo `2 ^ w`, which is the sign of the difference itself unless OF is set. -/
theorem SubResult.sf_ne_of_iff (hw : 0 < w) (h : SubResult a b false r f) : f.sf ≠ f.of ↔ a.toInt < b.toInt := by
  have hr := h.eq_sub
  obtain ⟨-, -, -, hof, -, hsf, -⟩ := h
  have hsf : f.sf = true ↔ (a.toInt - b.toInt).bmod (2 ^ w) < 0 := by
    rw [hsf, hr, BitVec.msb_eq_toInt, BitVec.toInt_sub, decide_eq_true_iff]
  have hof : f.of = true ↔ a.toInt - b.toInt < -2 ^ (w - 1) ∨ 2 ^ (w - 1) ≤ a.toInt - b.toInt := by simpa using hof
  cases hc : f.of with
  | false =>
    obtain ⟨hlo, hhi⟩ : -2 ^ (w - 1) ≤ a.toInt - b.toInt ∧ a.toInt - b.toInt < 2 ^ (w - 1) := by simpa [hc] using hof
    rw [bmod_two_pow_of_fits hw hlo hhi] at hsf
    rw [Bool.ne_false_iff, hsf, sub_neg]
  | true =>
    rw [hc, BitVec.toInt_sub_toInt_lt_twoPow_iff, BitVec.twoPow_le_toInt_sub_toInt_iff] at hof
    rw [ne_eq, hsf]
    have hover := hof.1 rfl
    omega

/-! ## INC and DEC (R264) -/

/-- OF after `a + 1` tells that `a` was the greatest signed number, AF that its low digit was 15. -/
theorem AddResult.inc_flags (hw : 1 < w) (h : AddResult a 1 false r f) :
    (f.of = true ↔ a = BitVec.intMax w) ∧ (f.af = true ↔ a.toNat % 16 = 15) := by
  obtain ⟨-, -, haf, hof, -⟩ := h
  have hone : (1 : BitVec w).toInt = 1 := BitVec.toInt_one hw
  have hone' : (1 : BitVec w).toNat = 1 := BitVec.toNat_one (by omega)
  rw [hone'] at haf
  rw [hone] at hof
  rw [haf, hof, ← BitVec.toInt_inj, BitVec.toInt_intMax]
  have hlo := BitVec.le_toInt a
  have hhi := BitVec.toInt_lt (x := a)
  simp only [Bool.toNat_false]
  generalize (2 : Int) ^ (w - 1) = N at *
  omega

/-- OF after `a - 1` tells that `a` was the least signed number, AF that its low digit was 0. -/
theorem SubResult.dec_flags (hw : 1 < w) (h : SubResult a 1 false r f) :
    (f.of = true ↔ a = BitVec.intMin w) ∧ (f.af = true ↔ a.toNat % 16 = 0) := by
  obtain ⟨-, -, haf, hof, -⟩ := h
  have hone : (1 : BitVec w).toInt = 1 := BitVec.toInt_one hw
  have hone' : (1 : BitVec w).toNat = 1 := BitVec.toNat_one (by omega)
  rw [hone'] at haf
  rw [hone] at hof
  rw [haf, hof, ← BitVec.toInt_inj, BitVec.toInt_intMin_of_pos (by omega)]
  have hlo := BitVec.le_toInt a
  have hhi := BitVec.toInt_lt (x := a)
  simp only [Bool.toNat_false]
  generalize (2 : Int) ^ (w - 1) = N at *
  omega

variable {d : Nat}

/-- INC: the sum with 1, its flags but CF, which is kept (R264). -/
theorem incN_result (hw : 1 < w) (h : AddResult a 1 false (addN a 1 false).1 ((addN a 1 false).2.apply f d)) :
    (incN a).1 = a + 1 ∧ Szp (a + 1) ((incN a).2.apply f d) ∧
      (((incN a).2.apply f d).of = true ↔ a = BitVec.intMax w) ∧
      (((incN a).2.apply f d).af = true ↔ a.toNat % 16 = 15) := by
  obtain ⟨hof, haf⟩ := h.inc_flags hw
  rw [← h.eq_add]
  obtain ⟨-, -, -, -, hszp⟩ := h
  exact ⟨rfl, hszp, hof, haf⟩

/-- DEC: the difference with 1, its flags but CF, which is kept (R264). -/
theorem decN_result (hw : 1 < w) (h : SubResult a 1 false (subN a 1 false).1 ((subN a 1 false).2.apply f d)) :
    (decN a).1 = a - 1 ∧ Szp (a - 1) ((decN a).2.apply f d) ∧
      (((decN a).2.apply f d).of = true ↔ a = BitVec.intMin w) ∧
      (((decN a).2.apply f d).af = true ↔ a.toNat % 16 = 0) := by
  obtain ⟨hof, haf⟩ := h.dec_flags hw
  rw [← h.eq_sub]
  obtain ⟨-, -, -, -, hszp⟩ := h
  exact ⟨rfl, hszp, hof, haf⟩

end
end Sys2Proof.Claims
end

section
/-! PROOFS. The exact values of products and quotients, unsigned and signed, and the high and low half of a double word (R278 to
R281, R486). -/

namespace Sys2Proof.Claims

open Sys2Proof Sys2Proof.Machine

section
variable {w : Nat}

/-! ## Halves -/

/-- The high half of a number of two halves is not 0 exactly when the number does not fit in one. -/
theorem high_ne_zero_iff (p : BitVec (w + w)) : p.extractLsb' w w ≠ 0 ↔ 2 ^ w ≤ p.toNat := by
  have hp : p.toNat / 2 ^ w < 2 ^ w := Nat.div_lt_of_lt_mul (Nat.pow_add 2 w w ▸ p.isLt)
  rw [BitVec.toNat_ne, BitVec.extractLsb'_toNat, Nat.shiftRight_eq_div_pow, Nat.mod_eq_of_lt hp]
  simp

/-- The low half of the residue of a number is its residue. -/
theorem low_ofInt (n : Int) : (BitVec.ofInt (w + w) n).extractLsb' 0 w = BitVec.ofInt w n := by
  rw [← BitVec.setWidth_eq_extractLsb' (by omega), ← BitVec.signExtend_eq_setWidth_of_le _ (by omega)]
  refine BitVec.eq_of_toInt_eq ?_
  rw [BitVec.toInt_signExtend, BitVec.toInt_ofInt, BitVec.toInt_ofInt, min_eq_left (by omega)]
  exact Int.bmod_bmod_of_dvd (Nat.pow_dvd_pow 2 (by omega))

/-- The low half means the whole number exactly when that fits in it as a signed number. -/
theorem low_toInt_ne_iff (hw : 0 < w) (p : BitVec (w + w)) :
    (p.extractLsb' 0 w).toInt ≠ p.toInt ↔ p.toInt < -2 ^ (w - 1) ∨ 2 ^ (w - 1) ≤ p.toInt := by
  have hlow : (p.extractLsb' 0 w).toInt = p.toInt.bmod (2 ^ w) := by
    rw [← BitVec.ofInt_toInt (x := p), low_ofInt, BitVec.toInt_ofInt, BitVec.ofInt_toInt]
  constructor
  · intro hne
    by_contra hfits
    push Not at hfits
    exact hne (hlow.trans (bmod_two_pow_of_fits hw hfits.1 hfits.2))
  · intro hover heq
    have hlo := BitVec.le_toInt (p.extractLsb' 0 w)
    have hhi := BitVec.toInt_lt (x := p.extractLsb' 0 w)
    omega

/-! ## Products -/

theorem mulN_toNat (a b : BitVec w) : (mulN a b).1.toNat = a.toNat * b.toNat := by
  refine (BitVec.toNat_ofNat _ _).trans (Nat.mod_eq_of_lt ?_)
  rw [Nat.pow_add]
  exact Nat.mul_lt_mul'' a.isLt b.isLt

/-- MUL sets CF exactly when the high half of the product is not 0 (R278). -/
theorem mulN_cf_iff (a b : BitVec w) (f : Flags) (d : Nat) :
    ((mulN a b).2.apply f d).cf = true ↔ (mulN a b).1.extractLsb' w w ≠ 0 := by
  rw [high_ne_zero_iff, mulN_toNat]
  exact decide_eq_true_iff

theorem imulN_toInt (hw : 0 < w) (a b : BitVec w) : (imulN a b).1.toInt = a.toInt * b.toInt := by
  have hlo : -2 ^ (w * 2 - 2) ≤ a.toInt * b.toInt := BitVec.le_toInt_mul_toInt
  have hhi : a.toInt * b.toInt ≤ 2 ^ (w * 2 - 2) := BitVec.toInt_mul_toInt_le
  have hpow : (2 : Int) ^ (w + w - 1) = 2 ^ (w * 2 - 2) * 2 := by
    rw [← pow_succ]; congr 1; omega
  have hpos : (0 : Int) < 2 ^ (w * 2 - 2) := by positivity
  exact BitVec.toInt_ofInt_eq_self (by omega) (by omega) (by omega)

/-- IMUL sets CF exactly when the product is outside the signed range of the operand (R279, R486). -/
theorem imulN_cf_iff (a b : BitVec w) (f : Flags) (d : Nat) : ((imulN a b).2.apply f d).cf = true ↔
    a.toInt * b.toInt < -2 ^ (w - 1) ∨ 2 ^ (w - 1) ≤ a.toInt * b.toInt := decide_eq_true_iff

/-! ## Quotients -/

/-- A quotient that fits: DIV gives it and the remainder (R280). -/
theorem divN_of_fits {n : BitVec (w + w)} {d : BitVec w} (hd : d ≠ 0) (hq : n.toNat / d.toNat ≤ 2 ^ w - 1) :
    ∃ q r, divN n d = some (q, r) ∧ q.toNat = n.toNat / d.toNat ∧ r.toNat = n.toNat % d.toNat := by
  have hd : d.toNat ≠ 0 := fun h => hd (BitVec.eq_of_toNat_eq (by simpa using h))
  have hr : n.toNat % d.toNat < 2 ^ w := (Nat.mod_lt _ (Nat.pos_of_ne_zero hd)).trans d.isLt
  have hpos : 0 < 2 ^ w := Nat.two_pow_pos w
  refine ⟨_, _, if_neg (by omega), ?_, ?_⟩
  · exact (BitVec.toNat_ofNat _ _).trans (Nat.mod_eq_of_lt (by omega))
  · exact (BitVec.toNat_ofNat _ _).trans (Nat.mod_eq_of_lt hr)

/-- DIV by 0, or with a quotient that does not fit, is the divide error (R280). -/
theorem divN_eq_none {n : BitVec (w + w)} {d : BitVec w} (h : d = 0 ∨ 2 ^ w - 1 < n.toNat / d.toNat) :
    divN n d = none :=
  if_pos (h.imp_left fun h => by rw [h]; exact BitVec.toNat_zero)

/-- A signed remainder is not of the opposite sign of the dividend. -/
theorem tmod_mul_nonneg (n d : Int) : 0 ≤ n.tmod d * n := by
  rcases le_total 0 n with hn | hn
  · exact mul_nonneg (Int.tmod_nonneg d hn) hn
  · rw [← neg_mul_neg, ← Int.neg_tmod]
    exact mul_nonneg (Int.tmod_nonneg d (neg_nonneg.2 hn)) (neg_nonneg.2 hn)

/-- A quotient within the range: IDIV gives it and the remainder (R281). -/
theorem idivN_of_fits (hw : 0 < w) {n : BitVec (w + w)} {d : BitVec w} (hd : d ≠ 0)
    (hq : (n.toInt.tdiv d.toInt).natAbs ≤ 2 ^ (w - 1) - 1) :
    ∃ q r, idivN n d = some (q, r) ∧ n.toInt = q.toInt * d.toInt + r.toInt ∧
      r.toInt.natAbs < d.toInt.natAbs ∧ 0 ≤ r.toInt * n.toInt := by
  have hd : d.toInt ≠ 0 := fun h => hd (BitVec.eq_of_toInt_eq (by simpa using h))
  have hrem : n.toInt - n.toInt.tdiv d.toInt * d.toInt = n.toInt.tmod d.toInt := by
    rw [Int.tmod_def, mul_comm]
  have hlt : (n.toInt.tmod d.toInt).natAbs < d.toInt.natAbs := by
    rw [Int.natAbs_tmod]
    exact Nat.mod_lt _ (Int.natAbs_pos.2 hd)
  have hpow : ((2 ^ (w - 1) : Nat) : Int) = 2 ^ (w - 1) := by push_cast; rfl
  have hpos : 0 < 2 ^ (w - 1) := Nat.two_pow_pos _
  have hdlo := BitVec.le_toInt d
  have hdhi := BitVec.toInt_lt (x := d)
  have hqInt : (BitVec.ofInt w (n.toInt.tdiv d.toInt)).toInt = n.toInt.tdiv d.toInt :=
    BitVec.toInt_ofInt_eq_self hw (by omega) (by omega)
  have hrInt : (BitVec.ofInt w (n.toInt.tmod d.toInt)).toInt = n.toInt.tmod d.toInt :=
    BitVec.toInt_ofInt_eq_self hw (by omega) (by omega)
  refine ⟨BitVec.ofInt w (n.toInt.tdiv d.toInt), BitVec.ofInt w (n.toInt.tmod d.toInt), ?_, ?_, ?_, ?_⟩
  · rw [← hrem]
    exact (if_neg hd).trans (if_neg (by omega))
  · rw [hqInt, hrInt, ← hrem]
    ring
  · rwa [hrInt]
  · rw [hrInt]
    exact tmod_mul_nonneg _ _

/-- IDIV by 0, or with a quotient outside the range, is the divide error (R281). -/
theorem idivN_eq_none {n : BitVec (w + w)} {d : BitVec w}
    (h : d = 0 ∨ 2 ^ (w - 1) - 1 < (n.toInt.tdiv d.toInt).natAbs) : idivN n d = none := by
  by_cases hd : d.toInt = 0
  · exact if_pos hd
  · have hpow : ((2 ^ (w - 1) : Nat) : Int) = 2 ^ (w - 1) := by push_cast; rfl
    have hq := h.resolve_left fun h => hd (h ▸ BitVec.toInt_zero)
    exact (if_neg hd).trans (if_pos (by omega))

end
end Sys2Proof.Claims
end

section
/-! PROOFS. What the shared shapes of the arithmetic instructions change: one operand and the status flags, the flags alone, or
the accumulator registers and the flags. -/

namespace Sys2Proof.Claims

open Sys2Proof Sys2Proof.Machine

/-! ## Two operands, one written, and the flags (R266) -/

/-- A two-operand operation that writes, whose result and flags are as `P` says of its operands. -/
theorem alu_result (s : State) (f : AluFn) (g : AluForm) {P : {w : Nat} → BitVec w → BitVec w → BitVec w → Flags → Prop}
    (h8 : ∀ a b : Byte, P a b (f a b s.flags.cf).1 ((f a b s.flags.cf).2.apply s.flags s.draws))
    (h16 : ∀ a b : Word, P a b (f a b s.flags.cf).1 ((f a b s.flags.cf).2.apply s.flags s.draws)) :
    OnlyData s (s.alu f g) ∧ ControlFlagsSame s (s.alu f g) ∧
      aluHolds s (fun x b => ∃ r, P (s.readRM8 x) b r (s.alu f g).flags ∧ Writes8 s (s.alu f g) x r)
        (fun x b => ∃ r, P (s.readRM16 x) b r (s.alu f g).flags ∧ Writes16 s (s.alu f g) x r) g := by
  refine alu_spec s f g (fun x b hwrites hflags hrun => ?_) fun x b hwrites hflags hrun => ?_
  · rw [hrun, hflags]
    exact ⟨_, h8 _ _, hwrites⟩
  · rw [hrun, hflags]
    exact ⟨_, h16 _ _, hwrites⟩

/-! ## One operand and the flags (R264, R277) -/

/-- A unary-group operation that writes, form by form. -/
theorem unary_spec (s : State) (f : UnFn) (g : UnaryForm) {p8 : RM8 → Prop} {p16 : RM16 → Prop}
    (h8 : ∀ x, Writes8 s (s.unary f g) x (f (s.readRM8 x)).1 →
      (s.unary f g).flags = (f (s.readRM8 x)).2.apply s.flags s.draws → p8 x)
    (h16 : ∀ x, Writes16 s (s.unary f g) x (f (s.readRM16 x)).1 →
      (s.unary f g).flags = (f (s.readRM16 x)).2.apply s.flags s.draws → p16 x) :
    OnlyData s (s.unary f g) ∧ ControlFlagsSame s (s.unary f g) ∧ unaryHolds p8 p16 g := by
  cases g with
  | rm8 x =>
    obtain ⟨hdata, hcontrol, hwrites, hflags⟩ := writeThenFlags8 s x (f (s.readRM8 x)).1 (f (s.readRM8 x)).2
    exact ⟨hdata, hcontrol, h8 x hwrites hflags⟩
  | rm16 x =>
    obtain ⟨hdata, hcontrol, hwrites, hflags⟩ := writeThenFlags16 s x (f (s.readRM16 x)).1 (f (s.readRM16 x)).2
    exact ⟨hdata, hcontrol, h16 x hwrites hflags⟩

/-- An operation whose effect keeps CF keeps it in every form. -/
theorem incDec_cf (s : State) {f : UnFn} (hf : ∀ {w : Nat} (a : BitVec w), (f a).2.cf = .keep) (g : IncForm) :
    (s.incDec f g).flags.cf = s.flags.cf := by
  cases g <;> simp [State.incDec, State.unRm8, State.unRm16, FlagEffect.apply, FlagChange.apply, hf]

/-- An operation of INC and DEC, form by form: the unary group and a register of its own (R275, R276). -/
theorem incDec_spec (s : State) {f : UnFn} (hf : ∀ {w : Nat} (a : BitVec w), (f a).2.cf = .keep) (g : IncForm)
    {p8 : RM8 → Prop} {p16 : RM16 → Prop}
    (h8 : ∀ x, Writes8 s (s.incDec f g) x (f (s.readRM8 x)).1 →
      (s.incDec f g).flags = (f (s.readRM8 x)).2.apply s.flags s.draws → p8 x)
    (h16 : ∀ x, Writes16 s (s.incDec f g) x (f (s.readRM16 x)).1 →
      (s.incDec f g).flags = (f (s.readRM16 x)).2.apply s.flags s.draws → p16 x) :
    OnlyData s (s.incDec f g) ∧ ControlFlagsSame s (s.incDec f g) ∧ (s.incDec f g).flags.cf = s.flags.cf ∧
      incHolds p8 p16 g := by
  have hspec : OnlyData s (s.incDec f g) ∧ ControlFlagsSame s (s.incDec f g) ∧ incHolds p8 p16 g := by
    cases g with
    | rm8 x => exact unary_spec s f (.rm8 x) h8 h16
    | rm16 x => exact unary_spec s f (.rm16 x) h8 h16
    | reg16 r => exact unary_spec s f (.rm16 (.reg r)) h8 h16
  obtain ⟨hdata, hcontrol, hholds⟩ := hspec
  exact ⟨hdata, hcontrol, incDec_cf s hf g, hholds⟩

/-! ## The flags alone (R266, R274) -/

/-- A two-operand operation that writes no operand, form by form. -/
theorem aluDiscard_spec (s : State) (f : AluFn) (g : AluForm) {p8 : RM8 → Byte → Prop} {p16 : RM16 → Word → Prop}
    (h8 : ∀ x b, (s.aluDiscard f g).flags = (f (s.readRM8 x) b s.flags.cf).2.apply s.flags s.draws → p8 x b)
    (h16 : ∀ x b, (s.aluDiscard f g).flags = (f (s.readRM16 x) b s.flags.cf).2.apply s.flags s.draws → p16 x b) :
    OnlyData s (s.aluDiscard f g) ∧ ControlFlagsSame s (s.aluDiscard f g) ∧ WritesNothing s (s.aluDiscard f g) ∧
      aluHolds s p8 p16 g := by
  obtain ⟨e, he⟩ : ∃ e, s.aluDiscard f g = s.applyFlags e := by cases g <;> exact ⟨_, rfl⟩
  have hframe : OnlyData s (s.aluDiscard f g) ∧ ControlFlagsSame s (s.aluDiscard f g) ∧
      WritesNothing s (s.aluDiscard f g) := by
    rw [he]
    exact ⟨onlyData_refl s, controlFlags_applyFlags s e, .of_regs rfl _, .of_mem rfl _⟩
  obtain ⟨hdata, hcontrol, hnothing⟩ := hframe
  refine ⟨hdata, hcontrol, hnothing, ?_⟩
  cases g with
  | rm8Reg8 | reg8Rm8 | alImm8 | rm8Imm8 | rm8Imm8Alias => exact h8 _ _ rfl
  | rm16Reg16 | reg16Rm16 | axImm16 | rm16Imm16 | rm16Imm8 => exact h16 _ _ rfl

/-- A jump on a flag that tells a condition is a jump on the condition (R404). -/
theorem jumpIf_eq_setIp {s : State} {c : Bool} {P : Prop} [Decidable P] (h : c = true ↔ P) (d : Byte) :
    s.jumpIf c d = s.setIp (if P then s.ip + d.signExtend 16 else s.ip) := by
  rw [State.jumpIf]
  by_cases hP : P
  · rw [if_pos hP, if_pos (h.2 hP)]
    rfl
  · rw [if_neg hP, if_neg (mt h.1 hP)]
    rfl

/-- The flags of a subtraction order its operands, and JB, JE and JL after it jump on that order (R267, R407, R409, R417). -/
theorem SubResult.orders {w : Nat} (hw : 0 < w) {a b r : BitVec w} {t : State} (h : SubResult a b false r t.flags) :
    (t.flags.zf = true ↔ a = b) ∧ (t.flags.cf = true ↔ a.toNat < b.toNat) ∧
      (t.flags.sf ≠ t.flags.of ↔ a.toInt < b.toInt) ∧
      ∀ d, (exec (.jb d) t = .next (t.setIp (if a.toNat < b.toNat then t.ip + d.signExtend 16 else t.ip))) ∧
        (exec (.je d) t = .next (t.setIp (if a = b then t.ip + d.signExtend 16 else t.ip))) ∧
        (exec (.jl d) t = .next (t.setIp (if a.toInt < b.toInt then t.ip + d.signExtend 16 else t.ip))) :=
  ⟨h.zf_iff, h.cf_iff, h.sf_ne_of_iff hw, fun d =>
    ⟨congrArg Host.Outcome.next (jumpIf_eq_setIp h.cf_iff d), congrArg Host.Outcome.next (jumpIf_eq_setIp h.zf_iff d),
      congrArg Host.Outcome.next (jumpIf_eq_setIp (bne_iff_ne.trans (h.sf_ne_of_iff hw)) d)⟩⟩

/-! ## The accumulator and the flags -/

/-- Registers loaded and then flags: nothing else changes. -/
theorem regsThenFlags_frame (s : State) {g : Regs} {l : List Reg16} (hg : ∀ r ∉ l, getReg16 g r = getReg16 s.regs r)
    (e : FlagEffect) : OnlyData s (({ s with regs := g } : State).applyFlags e) ∧
      ControlFlagsSame s (({ s with regs := g } : State).applyFlags e) ∧
      RegsSameBut s (({ s with regs := g } : State).applyFlags e) l ∧
      MemSameBut s (({ s with regs := g } : State).applyFlags e) [] :=
  ⟨onlyData_refl s, ⟨rfl, rfl, rfl⟩, hg, .of_mem rfl _⟩

/-- Two different word registers loaded and then flags. -/
theorem wordPair_frame (s : State) {q r : Reg16} (v w : Word) (e : FlagEffect) (hne : q ≠ r) {l : List Reg16}
    (hq : q ∈ l) (hr : r ∈ l) :
    OnlyData s (((s.setReg16 q v).setReg16 r w).applyFlags e) ∧
      ControlFlagsSame s (((s.setReg16 q v).setReg16 r w).applyFlags e) ∧
      RegsSameBut s (((s.setReg16 q v).setReg16 r w).applyFlags e) l ∧
      MemSameBut s (((s.setReg16 q v).setReg16 r w).applyFlags e) [] ∧
      (((s.setReg16 q v).setReg16 r w).applyFlags e).reg16 q = v ∧
      (((s.setReg16 q v).setReg16 r w).applyFlags e).reg16 r = w := by
  have hregs : ∀ x ∉ l, getReg16 (setReg16 (setReg16 s.regs q v) r w) x = getReg16 s.regs x := fun x hx => by
    rw [getReg16_setReg16_ne _ _ (ne_of_mem_of_not_mem hr hx).symm,
      getReg16_setReg16_ne _ _ (ne_of_mem_of_not_mem hq hx).symm]
  obtain ⟨hdata, hcontrol, hregs, hmem⟩ := regsThenFlags_frame s hregs e
  refine ⟨hdata, hcontrol, hregs, hmem, ?_, ?_⟩
  · exact (getReg16_setReg16_ne _ _ hne).trans (getReg16_setReg16_same _ _ _)
  · exact getReg16_setReg16_same _ _ _

/-- The two halves of AX loaded and then flags. -/
theorem halfPair_frame (s : State) {q r : Reg8} (v w : Byte) (e : FlagEffect) (hne : q ≠ r) (hq : parent q = .ax)
    (hr : parent r = .ax) :
    OnlyData s (((s.setReg8 q v).setReg8 r w).applyFlags e) ∧
      ControlFlagsSame s (((s.setReg8 q v).setReg8 r w).applyFlags e) ∧
      RegsSameBut s (((s.setReg8 q v).setReg8 r w).applyFlags e) [.ax] ∧
      MemSameBut s (((s.setReg8 q v).setReg8 r w).applyFlags e) [] ∧
      (((s.setReg8 q v).setReg8 r w).applyFlags e).reg8 q = v ∧
      (((s.setReg8 q v).setReg8 r w).applyFlags e).reg8 r = w := by
  have hregs : ∀ x ∉ [Reg16.ax], getReg16 (setReg8 (setReg8 s.regs q v) r w) x = getReg16 s.regs x := fun x hx => by
    have hx : x ≠ .ax := by simpa using hx
    rw [getReg16_setReg8_ne _ _ (hr ▸ hx), getReg16_setReg8_ne _ _ (hq ▸ hx)]
  obtain ⟨hdata, hcontrol, hregs, hmem⟩ := regsThenFlags_frame s hregs e
  refine ⟨hdata, hcontrol, hregs, hmem, ?_, ?_⟩
  · exact (getReg8_setReg8 _ _ _ _).trans ((if_neg hne.symm).trans (getReg8_setReg8_same _ _ _))
  · exact getReg8_setReg8_same _ _ _

/-- A double word loaded into DX:AX and then flags (R278, R279). -/
theorem setDxAx_frame (s : State) (p : BitVec 32) (e : FlagEffect) :
    OnlyData s ((s.setDxAx p).applyFlags e) ∧ ControlFlagsSame s ((s.setDxAx p).applyFlags e) ∧
      RegsSameBut s ((s.setDxAx p).applyFlags e) [.ax, .dx] ∧ MemSameBut s ((s.setDxAx p).applyFlags e) [] ∧
      ((s.setDxAx p).applyFlags e).reg16 .dx = p.extractLsb' 16 16 ∧
      ((s.setDxAx p).applyFlags e).reg16 .ax = p.extractLsb' 0 16 :=
  wordPair_frame s _ _ e (by decide) (by decide) (by decide)

/-- The two halves of a double word, put together again. -/
theorem append_halves (p : BitVec 32) : p.extractLsb' 16 16 ++ p.extractLsb' 0 16 = p :=
  BitVec.extractLsb'_append_extractLsb' (w := 16) (len := 16)

/-- The number of two words put together. -/
theorem toNat_append_word (h l : Word) : (h ++ l).toNat = h.toNat * 65536 + l.toNat := by
  rw [BitVec.toNat_append, ← Nat.shiftLeft_add_eq_or_of_lt l.isLt, Nat.shiftLeft_eq]

/-- IMUL with an immediate: the low word of the product in the register, CF and OF telling whether it lost anything (R486). -/
theorem imulImm_result (s : State) (r : Reg16) (x : RM16) (i : Word) :
    OnlyData s (s.imulImm r x i) ∧ ControlFlagsSame s (s.imulImm r x i) ∧
      Writes16 s (s.imulImm r x i) (.reg r) (BitVec.ofInt 16 ((s.readRM16 x).toInt * i.toInt)) ∧
      ((s.imulImm r x i).flags.cf = true ↔
        (s.readRM16 x).toInt * i.toInt < -32768 ∨ 32767 < (s.readRM16 x).toInt * i.toInt) ∧
      (s.imulImm r x i).flags.of = (s.imulImm r x i).flags.cf := by
  obtain ⟨hdata, hcontrol, hwrites, -⟩ := writeThenFlags16 s (.reg r) ((imulN (s.readRM16 x) i).1.extractLsb' 0 16)
    (imulN (s.readRM16 x) i).2
  exact ⟨hdata, hcontrol, low_ofInt _ ▸ hwrites, imulN_cf_iff _ _ _ _, rfl⟩

/-- The end of a byte divide that fits: the quotient in AL, the remainder in AH (R280, R281). -/
theorem finishDiv8_frame (s : State) (q r : Byte) : OnlyData s (s.finishDiv8 (some (q, r))) ∧
    ControlFlagsSame s (s.finishDiv8 (some (q, r))) ∧ RegsSameBut s (s.finishDiv8 (some (q, r))) [.ax] ∧
    MemSameBut s (s.finishDiv8 (some (q, r))) [] ∧ (s.finishDiv8 (some (q, r))).reg8 .al = q ∧
    (s.finishDiv8 (some (q, r))).reg8 .ah = r :=
  halfPair_frame s q r .allUndef (by decide) rfl rfl

/-- The end of a word divide that fits: the quotient in AX, the remainder in DX (R280, R281). -/
theorem finishDiv16_frame (s : State) (q r : Word) : OnlyData s (s.finishDiv16 (some (q, r))) ∧
    ControlFlagsSame s (s.finishDiv16 (some (q, r))) ∧ RegsSameBut s (s.finishDiv16 (some (q, r))) [.ax, .dx] ∧
    MemSameBut s (s.finishDiv16 (some (q, r))) [] ∧ (s.finishDiv16 (some (q, r))).reg16 .ax = q ∧
    (s.finishDiv16 (some (q, r))).reg16 .dx = r :=
  wordPair_frame s q r .allUndef (by decide) (by decide) (by decide)

end Sys2Proof.Claims
end

section
/-! PROOFS. The values and flags of the decimal and ASCII adjusts (R282 to R287) and the sign extensions (R288, R289). -/

namespace Sys2Proof.Claims

open Sys2Proof Sys2Proof.Machine

theorem decide_or_iff {p : Prop} [Decidable p] (b : Bool) : (decide p || b) = true ↔ p ∨ b = true := by simp

/-! ## DAA and DAS (R282, R283) -/

section
variable (al : Byte) (cf af : Bool) (f : Flags) (d : Nat)

/-- DAA adds 6 for the low digit and 60h for the high one. -/
theorem daaN_value : (daaN al cf af).1 = al + (if 9 < al.toNat % 16 ∨ af = true then 0x06#8 else 0#8) +
    (if 0x99 < al.toNat ∨ cf = true then 0x60#8 else 0#8) := by
  simp only [daaN, decide_or_iff]
  split <;> split <;> simp

/-- DAS subtracts 6 for the low digit and 60h for the high one. -/
theorem dasN_value : (dasN al cf af).1 = al - (if 9 < al.toNat % 16 ∨ af = true then 0x06#8 else 0#8) -
    (if 0x99 < al.toNat ∨ cf = true then 0x60#8 else 0#8) := by
  simp only [dasN, decide_or_iff]
  split <;> split <;> simp

/-- Each of AF and CF tells whether its digit was adjusted (R282). -/
theorem daaN_flags : (((daaN al cf af).2.apply f d).af = true ↔ 9 < al.toNat % 16 ∨ af = true) ∧
    (((daaN al cf af).2.apply f d).cf = true ↔ 0x99 < al.toNat ∨ cf = true) ∧
    Szp (daaN al cf af).1 ((daaN al cf af).2.apply f d) :=
  ⟨decide_or_iff _, decide_or_iff _, szp_of_setSZP _ _ _ _⟩

/-- CF before sets CF after through the high digit, so the low digit adds only the borrow of `AL - 6` (R283). -/
theorem dasN_flags : (((dasN al cf af).2.apply f d).af = true ↔ 9 < al.toNat % 16 ∨ af = true) ∧
    (((dasN al cf af).2.apply f d).cf = true ↔
      (0x99 < al.toNat ∨ cf = true) ∨ ((9 < al.toNat % 16 ∨ af = true) ∧ al.toNat < 6)) ∧
    Szp (dasN al cf af).1 ((dasN al cf af).2.apply f d) := by
  refine ⟨decide_or_iff _, ?_, szp_of_setSZP _ _ _ _⟩
  simp only [dasN, setSZP, FlagEffect.apply, FlagChange.apply, decide_or_iff]
  by_cases hhigh : 0x99 < al.toNat ∨ cf = true
  · simp only [hhigh, if_true, true_or]
  · have hcf : cf = false := by simpa using (not_or.1 hhigh).2
    simp [hcf]

end

/-! ## AAA and AAS (R284, R285) -/

/-- The low digit of a byte. -/
theorem toNat_and_digit (i : Byte) : (i &&& 0x0F#8).toNat = i.toNat % 16 := by
  rw [BitVec.toNat_and]
  exact Nat.and_two_pow_sub_one_eq_mod _ 4

section
variable {al ah : Byte} {af : Bool}

theorem aaaN_of_adjusted (h : 9 < al.toNat % 16 ∨ af = true) :
    (aaaN al ah af).1.toNat = (al.toNat + 6) % 16 ∧ (aaaN al ah af).2.1.toNat = (ah.toNat + 1) % 256 := by
  simp only [aaaN, decide_or_iff, if_pos h, toNat_and_digit]
  exact ⟨by bv_omega, by bv_omega⟩

theorem aaaN_of_not_adjusted (h : ¬ (9 < al.toNat % 16 ∨ af = true)) :
    (aaaN al ah af).1.toNat = al.toNat % 16 ∧ (aaaN al ah af).2.1 = ah := by
  simp only [aaaN, decide_or_iff, if_neg h, toNat_and_digit, and_self]

theorem aasN_of_adjusted (h : 9 < al.toNat % 16 ∨ af = true) :
    (aasN al ah af).1.toNat = (al.toNat + 256 - 6) % 16 ∧ (aasN al ah af).2.1.toNat = (ah.toNat + 256 - 1) % 256 := by
  simp only [aasN, decide_or_iff, if_pos h, toNat_and_digit]
  exact ⟨by bv_omega, by bv_omega⟩

theorem aasN_of_not_adjusted (h : ¬ (9 < al.toNat % 16 ∨ af = true)) :
    (aasN al ah af).1.toNat = al.toNat % 16 ∧ (aasN al ah af).2.1 = ah := by
  simp only [aasN, decide_or_iff, if_neg h, toNat_and_digit, and_self]

end

/-! ## AAM and AAD (R286, R287) -/

/-- AAM divides AL by the base. -/
theorem aamN_splits (al : Byte) {base : Byte} (h : base ≠ 0#8) :
    al.toNat = (aamN al base).1.toNat * base.toNat + (aamN al base).2.toNat ∧ (aamN al base).2.toNat < base.toNat := by
  have hbase : 0 < base.toNat := BitVec.toNat_pos_of_ne_zero h
  have hq : al.toNat / base.toNat < 2 ^ 8 := (Nat.div_le_self _ _).trans_lt al.isLt
  have hr : al.toNat % base.toNat < base.toNat := Nat.mod_lt _ hbase
  simp only [aamN, BitVec.toNat_ofNat, Nat.mod_eq_of_lt hq, Nat.mod_eq_of_lt (hr.trans base.isLt)]
  exact ⟨(Nat.div_add_mod' _ _).symm, hr⟩

/-! ## CBW and CWD (R288, R289) -/

/-- A word with its sign in all bits of the word above means what the word meant. -/
theorem signWord_append_toInt (v : Word) : ((if v.msb then 0xFFFF#16 else 0#16) ++ v).toInt = v.toInt := by
  have hsign : v.signExtend 32 = (if v.msb then 0xFFFF#16 else 0#16) ++ v :=
    BitVec.signExtend_eq_append_of_le (by decide)
  rw [← hsign, BitVec.toInt_signExtend_of_le (by decide)]

end Sys2Proof.Claims
end

section
/-! PROOFS. The obligations of `42_arithmetic.md`. -/

open Sys2Proof Sys2Proof.Machine Sys2Proof.Claims

/-- Settles O30: every form writes one operand, with the result and the flags of the sum. -/
theorem addAndAdcResults : Obligations.AddAndAdcResults := by
  unfold Obligations.AddAndAdcResults
  exact fun s f =>
    ⟨⟨_, rfl, alu_result s aluAdd f (P := fun a b r f => AddResult a b false r f)
      (fun a b => addN_result8 a b _ _ _) fun a b => addN_result16 a b _ _ _⟩,
    ⟨_, rfl, alu_result s aluAdc f (P := fun a b r f => AddResult a b s.flags.cf r f)
      (fun a b => addN_result8 a b _ _ _) fun a b => addN_result16 a b _ _ _⟩⟩

/-- Settles O31: every form writes one operand, with the result and the flags of the difference; NEG subtracts from 0. -/
theorem subSbbAndNegResults : Obligations.SubSbbAndNegResults := by
  unfold Obligations.SubSbbAndNegResults
  refine fun s =>
    ⟨fun f => ⟨_, rfl, alu_result s aluSub f (P := fun a b r f => SubResult a b false r f)
      (fun a b => subN_result8 a b _ _ _) fun a b => subN_result16 a b _ _ _⟩,
    fun f => ⟨_, rfl, alu_result s aluSbb f (P := fun a b r f => SubResult a b s.flags.cf r f)
      (fun a b => subN_result8 a b _ _ _) fun a b => subN_result16 a b _ _ _⟩,
    fun f => ⟨_, rfl, unary_spec s negN f (fun x hwrites hflags => ?_) fun x hwrites hflags => ?_⟩⟩
  · have hneg := hflags ▸ subN_result8 0 (s.readRM8 x) false s.flags s.draws
    exact ⟨_, hneg, hwrites, hneg.cf_iff_ne_zero⟩
  · have hneg := hflags ▸ subN_result16 0 (s.readRM16 x) false s.flags s.draws
    exact ⟨_, hneg, hwrites, hneg.cf_iff_ne_zero⟩

/-- Settles O32: CMP sets the flags of a difference, and those order the operands. -/
theorem compareOrdersOperands : Obligations.CompareOrdersOperands := by
  unfold Obligations.CompareOrdersOperands
  refine fun s f => ⟨_, rfl, aluDiscard_spec s aluSub f (fun x b hflags => ?_) fun x b hflags => ?_⟩
  · have hsub := hflags ▸ subN_result8 (s.readRM8 x) b false s.flags s.draws
    exact ⟨_, hsub, hsub.orders (by decide)⟩
  · have hsub := hflags ▸ subN_result16 (s.readRM16 x) b false s.flags s.draws
    exact ⟨_, hsub, hsub.orders (by decide)⟩

/-- Settles O33: every form writes one operand, with the sum or the difference with 1. -/
theorem incDecResults : Obligations.IncDecResults := by
  unfold Obligations.IncDecResults
  refine fun s f =>
    ⟨⟨_, rfl, incDec_spec s (fun _ => rfl) f (fun x hwrites hflags => ?_) fun x hwrites hflags => ?_⟩,
    ⟨_, rfl, incDec_spec s (fun _ => rfl) f (fun x hwrites hflags => ?_) fun x hwrites hflags => ?_⟩⟩ <;>
    rw [hflags]
  · obtain ⟨hvalue, hresult⟩ := incN_result (by decide) (addN_result8 (s.readRM8 x) 1 false s.flags s.draws)
    exact ⟨hvalue ▸ hwrites, hresult⟩
  · obtain ⟨hvalue, hresult⟩ := incN_result (by decide) (addN_result16 (s.readRM16 x) 1 false s.flags s.draws)
    exact ⟨hvalue ▸ hwrites, hresult⟩
  · obtain ⟨hvalue, hresult⟩ := decN_result (by decide) (subN_result8 (s.readRM8 x) 1 false s.flags s.draws)
    exact ⟨hvalue ▸ hwrites, hresult⟩
  · obtain ⟨hvalue, hresult⟩ := decN_result (by decide) (subN_result16 (s.readRM16 x) 1 false s.flags s.draws)
    exact ⟨hvalue ▸ hwrites, hresult⟩

/-- Settles O34: the product of twice the width, in AX or in DX:AX. -/
theorem mulProduct : Obligations.MulProduct := by
  unfold Obligations.MulProduct
  intro s f
  cases f with
  | rm8 x =>
    obtain ⟨hdata, hcontrol, ⟨hax, hregs, hmem⟩, -⟩ := writeThenFlags16 s (.reg .ax)
      (mulN (s.reg8 .al) (s.readRM8 x)).1 (mulN (s.reg8 .al) (s.readRM8 x)).2
    refine ⟨_, rfl, hdata, hcontrol, hmem, ?_, hregs, ?_, rfl⟩
    · exact (congrArg BitVec.toNat hax).trans (mulN_toNat _ _)
    · exact mulN_cf_iff _ _ _ _
  | rm16 x =>
    obtain ⟨hdata, hcontrol, hregs, hmem, hdx, hax⟩ := setDxAx_frame s
      (mulN (s.reg16 .ax) (s.readRM16 x)).1 (mulN (s.reg16 .ax) (s.readRM16 x)).2
    refine ⟨_, rfl, hdata, hcontrol, hmem, ?_, hregs, ?_, rfl⟩
    · rw [← toNat_append_word, hdx, hax, append_halves]
      exact mulN_toNat _ _
    · rw [hdx]
      exact mulN_cf_iff _ _ _ _

/-- Settles O35: the signed product of twice the width, or its low word in any register. -/
theorem imulProduct : Obligations.ImulProduct := by
  unfold Obligations.ImulProduct
  refine fun s => ⟨fun f => ?_, fun r x i => ⟨_, rfl, imulImm_result s r x i⟩, fun r x i => ?_⟩
  · cases f with
    | rm8 x =>
      obtain ⟨hdata, hcontrol, ⟨hax, hregs, hmem⟩, -⟩ := writeThenFlags16 s (.reg .ax)
        (imulN (s.reg8 .al) (s.readRM8 x)).1 (imulN (s.reg8 .al) (s.readRM8 x)).2
      have hproduct := imulN_toInt (by decide) (s.reg8 .al) (s.readRM8 x)
      refine ⟨_, rfl, hdata, hcontrol, hmem, (congrArg BitVec.toInt hax).trans hproduct, hregs, ?_, rfl⟩
      exact (imulN_cf_iff _ _ _ _).trans (hproduct ▸ (low_toInt_ne_iff (by decide) _).symm)
    | rm16 x =>
      obtain ⟨hdata, hcontrol, hregs, hmem, hdx, hax⟩ := setDxAx_frame s
        (imulN (s.reg16 .ax) (s.readRM16 x)).1 (imulN (s.reg16 .ax) (s.readRM16 x)).2
      have hproduct := imulN_toInt (by decide) (s.reg16 .ax) (s.readRM16 x)
      refine ⟨_, rfl, hdata, hcontrol, hmem, ?_, hregs, ?_, rfl⟩
      · rw [hdx, hax, append_halves]
        exact hproduct
      · rw [hdx, hax, append_halves]
        exact (imulN_cf_iff _ _ _ _).trans (hproduct ▸ (low_toInt_ne_iff (by decide) _).symm)
  · rw [← BitVec.toInt_signExtend_of_le (v := 16) (x := i) (by decide)]
    exact ⟨_, rfl, imulImm_result s r x (sext16 i)⟩

/-- Settles O36: the quotient and remainder of `divN`, or the divide error. -/
theorem divQuotientOrError : Obligations.DivQuotientOrError := by
  unfold Obligations.DivQuotientOrError
  refine fun s => ⟨fun x => ⟨fun ⟨hd, hfits⟩ => ?_, fun h => ?_⟩, fun x => ⟨fun ⟨hd, hfits⟩ => ?_, fun h => ?_⟩⟩
  · obtain ⟨q, r, hdiv, hq, hr⟩ := divN_of_fits (w := 8) hd hfits
    obtain ⟨hdata, hcontrol, hregs, hmem, hal, hah⟩ := finishDiv8_frame s q r
    exact ⟨_, congrArg (Host.Outcome.next <| s.finishDiv8 ·) hdiv, hdata, hcontrol, hregs, hmem, by rw [hal, hq], by rw [hah, hr]⟩
  · exact congrArg (Host.Outcome.next <| s.finishDiv8 ·) (divN_eq_none (w := 8) h)
  · obtain ⟨q, r, hdiv, hq, hr⟩ := divN_of_fits (w := 16) hd hfits
    obtain ⟨hdata, hcontrol, hregs, hmem, hax, hdx⟩ := finishDiv16_frame s q r
    exact ⟨_, congrArg (Host.Outcome.next <| s.finishDiv16 ·) hdiv, hdata, hcontrol, hregs, hmem, by rw [hax, hq], by rw [hdx, hr]⟩
  · exact congrArg (Host.Outcome.next <| s.finishDiv16 ·) (divN_eq_none (w := 16) h)

/-- Settles O37: the quotient and remainder of `idivN`, or the divide error. -/
theorem idivQuotientOrError : Obligations.IdivQuotientOrError := by
  unfold Obligations.IdivQuotientOrError
  refine fun s => ⟨fun x => ⟨fun ⟨hd, hfits⟩ => ?_, fun h => ?_⟩, fun x => ⟨fun ⟨hd, hfits⟩ => ?_, fun h => ?_⟩⟩
  · obtain ⟨q, r, hdiv, hresult⟩ := idivN_of_fits (w := 8) (by decide) hd hfits
    obtain ⟨hdata, hcontrol, hregs, hmem, hal, hah⟩ := finishDiv8_frame s q r
    refine ⟨_, congrArg (Host.Outcome.next <| s.finishDiv8 ·) hdiv, hdata, hcontrol, hregs, hmem, ?_⟩
    rw [hal, hah]
    exact hresult
  · exact congrArg (Host.Outcome.next <| s.finishDiv8 ·) (idivN_eq_none (w := 8) h)
  · obtain ⟨q, r, hdiv, hresult⟩ := idivN_of_fits (w := 16) (by decide) hd hfits
    obtain ⟨hdata, hcontrol, hregs, hmem, hax, hdx⟩ := finishDiv16_frame s q r
    refine ⟨_, congrArg (Host.Outcome.next <| s.finishDiv16 ·) hdiv, hdata, hcontrol, hregs, hmem, ?_⟩
    rw [hax, hdx]
    exact hresult
  · exact congrArg (Host.Outcome.next <| s.finishDiv16 ·) (idivN_eq_none (w := 16) h)

/-- Settles O39: the values and the flags of the four adjusts. -/
theorem decimalAndAsciiAdjust : Obligations.DecimalAndAsciiAdjust := by
  unfold Obligations.DecimalAndAsciiAdjust
  refine ⟨fun s => ⟨?_, ?_⟩, fun s => ⟨?_, ?_⟩⟩
  · obtain ⟨hdata, hcontrol, hwrites, -⟩ := writeThenFlags8 s (.reg .al)
      (daaN (s.reg8 .al) s.flags.cf s.flags.af).1 (daaN (s.reg8 .al) s.flags.cf s.flags.af).2
    refine ⟨_, _, rfl, hdata, hcontrol, hwrites, fun hl hh => ?_, fun hl hh => ?_, fun hl hh => ?_, fun hl hh => ?_,
      daaN_flags _ _ _ _ _⟩ <;> rw [daaN_value]
    · rw [if_pos hl, if_pos hh]
      bv_omega
    · rw [if_pos hl, if_neg hh]
      bv_omega
    · rw [if_neg hl, if_pos hh]
      bv_omega
    · rw [if_neg hl, if_neg hh]
      bv_omega
  · obtain ⟨hdata, hcontrol, hwrites, -⟩ := writeThenFlags8 s (.reg .al)
      (dasN (s.reg8 .al) s.flags.cf s.flags.af).1 (dasN (s.reg8 .al) s.flags.cf s.flags.af).2
    refine ⟨_, _, rfl, hdata, hcontrol, hwrites, fun hl hh => ?_, fun hl hh => ?_, fun hl hh => ?_, fun hl hh => ?_,
      dasN_flags _ _ _ _ _⟩ <;> rw [dasN_value]
    · rw [if_pos hl, if_pos hh]
      bv_omega
    · rw [if_pos hl, if_neg hh]
      bv_omega
    · rw [if_neg hl, if_pos hh]
      bv_omega
    · rw [if_neg hl, if_neg hh]
      bv_omega
  · obtain ⟨hdata, hcontrol, hregs, hmem, hal, hah⟩ := halfPair_frame s (q := .al) (r := .ah)
      (aaaN (s.reg8 .al) (s.reg8 .ah) s.flags.af).1 (aaaN (s.reg8 .al) (s.reg8 .ah) s.flags.af).2.1
      (aaaN (s.reg8 .al) (s.reg8 .ah) s.flags.af).2.2 (by decide) rfl rfl
    refine ⟨_, rfl, hdata, hcontrol, hregs, hmem, decide_or_iff _, decide_or_iff _, fun h => ?_, fun h => ?_⟩ <;>
      rw [hal, hah]
    · exact aaaN_of_adjusted h
    · exact aaaN_of_not_adjusted h
  · obtain ⟨hdata, hcontrol, hregs, hmem, hal, hah⟩ := halfPair_frame s (q := .al) (r := .ah)
      (aasN (s.reg8 .al) (s.reg8 .ah) s.flags.af).1 (aasN (s.reg8 .al) (s.reg8 .ah) s.flags.af).2.1
      (aasN (s.reg8 .al) (s.reg8 .ah) s.flags.af).2.2 (by decide) rfl rfl
    refine ⟨_, rfl, hdata, hcontrol, hregs, hmem, decide_or_iff _, decide_or_iff _, fun h => ?_, fun h => ?_⟩ <;>
      rw [hal, hah]
    · exact aasN_of_adjusted h
    · exact aasN_of_not_adjusted h

/-- Settles O40: the quotient and remainder by the base, the joined byte, and two sign extensions. -/
theorem aamAadCbwCwd : Obligations.AamAadCbwCwd := by
  unfold Obligations.AamAadCbwCwd
  refine ⟨fun s base => ⟨fun hbase => ?_, rfl, ?_⟩, fun s => ⟨?_, ?_⟩⟩
  · obtain ⟨hdata, hcontrol, hregs, hmem, hah, hal⟩ := halfPair_frame s (q := .ah) (r := .al)
      (aamN (s.reg8 .al) base).1 (aamN (s.reg8 .al) base).2 (aamFlags (aamN (s.reg8 .al) base).2) (by decide) rfl rfl
    obtain ⟨hsplit, hlt⟩ := aamN_splits (s.reg8 .al) hbase
    refine ⟨_, if_neg hbase, hdata, hcontrol, hregs, hmem, ?_⟩
    rw [hah, hal]
    exact ⟨hsplit, hlt, szp_of_setSZP _ _ _ _⟩
  · obtain ⟨hdata, hcontrol, hregs, hmem, hal, hah⟩ := halfPair_frame s (q := .al) (r := .ah)
      (aadN (s.reg8 .al) (s.reg8 .ah) base) 0#8 (aamFlags (aadN (s.reg8 .al) (s.reg8 .ah) base)) (by decide) rfl rfl
    refine ⟨_, rfl, hdata, hcontrol, hregs, hmem, ?_⟩
    rw [hah, hal]
    exact ⟨BitVec.toNat_ofNat _ _, rfl, szp_of_setSZP _ _ _ _⟩
  · obtain ⟨hdata, hflags, hax, hregs, hmem⟩ := writeOp16_moves s (.reg .ax) (sext16 (s.reg8 .al))
    exact ⟨_, rfl, hdata, hflags, hregs, hmem,
      (congrArg BitVec.toInt hax).trans (BitVec.toInt_signExtend_of_le (by decide))⟩
  · obtain ⟨hdata, hflags, hdx, hregs, hmem⟩ := writeOp16_moves s (.reg .dx)
      (if (s.reg16 .ax).msb then 0xFFFF#16 else 0#16)
    have hax := hregs .ax (by decide)
    refine ⟨_, rfl, hdata, hflags, hregs, hmem, ?_⟩
    exact (congrArg₂ (fun h l : Word => (h ++ l).toInt) hdx hax).trans (signWord_append_toInt _)

end

section
/-! PROOFS. AND, OR, XOR, TEST and NOT by their forms: the logical result and its flags (R265, R320 to R324). -/

namespace Sys2Proof.Claims

open Sys2Proof Sys2Proof.Machine

theorem logicFlags_logicN {w : Nat} (r : BitVec w) (f : Flags) (d : Nat) : LogicFlags r ((logicN r).apply f d) :=
  ⟨rfl, rfl, szp_of_setSZP _ _ _ _⟩

/-- A two-operand operation with the flags of a logical result, form by form. -/
theorem alu_logic (s : State) {f : AluFn}
    (hf : ∀ {w : Nat} (a b : BitVec w) (cf : Bool), (f a b cf).2 = logicN (f a b cf).1) (g : AluForm) :
    OnlyData s (s.alu f g) ∧ ControlFlagsSame s (s.alu f g) ∧
      aluHolds s
        (fun x b => LogicFlags (f (s.readRM8 x) b s.flags.cf).1 (s.alu f g).flags ∧
          Writes8 s (s.alu f g) x (f (s.readRM8 x) b s.flags.cf).1)
        (fun x b => LogicFlags (f (s.readRM16 x) b s.flags.cf).1 (s.alu f g).flags ∧
          Writes16 s (s.alu f g) x (f (s.readRM16 x) b s.flags.cf).1) g := by
  refine alu_spec s f g (fun x b hwrites hflags hrun => ?_) fun x b hwrites hflags hrun => ?_
  · rw [hrun, hflags, hf]
    exact ⟨logicFlags_logicN _ _ _, hwrites⟩
  · rw [hrun, hflags, hf]
    exact ⟨logicFlags_logicN _ _ _, hwrites⟩

/-- The two-operand form with the operands of a form of TEST (R323). -/
def testAluForm : TestForm → AluForm
  | .rm8Reg8 x r => .rm8Reg8 x r
  | .rm16Reg16 x r => .rm16Reg16 x r
  | .alImm8 i => .alImm8 i
  | .axImm16 i => .axImm16 i
  | .rm8Imm8 x i => .rm8Imm8 x i
  | .rm16Imm16 x i => .rm16Imm16 x i

/-- TEST is AND with the result discarded (R323). -/
theorem exec_test (f : TestForm) (s : State) : exec (.test f) s = .next (s.aluDiscard aluAnd (testAluForm f)) := by
  cases f <;> rfl

theorem aluHolds_testAluForm (s : State) (p8 : RM8 → Byte → Prop) (p16 : RM16 → Word → Prop) (f : TestForm) :
    aluHolds s p8 p16 (testAluForm f) = testHolds s p8 p16 f := by
  cases f <;> rfl

/-- NOT is XOR with all ones, without XOR's flags (R324). -/
theorem not_moves (s : State) (f : UnaryForm) :
    ∃ t, exec (.not f) s = .next t ∧ OnlyData s t ∧ t.flags = s.flags ∧
      unaryHolds (fun x => Writes8 s t x (s.readRM8 x ^^^ 0xFF#8))
        (fun x => Writes16 s t x (s.readRM16 x ^^^ 0xFFFF#16)) f := by
  cases f with
  | rm8 x =>
    have hnot : s.readRM8 x ^^^ 0xFF#8 = ~~~ s.readRM8 x := BitVec.xor_allOnes
    exact ⟨_, rfl, hnot ▸ writeOp8_moves s x _⟩
  | rm16 x =>
    have hnot : s.readRM16 x ^^^ 0xFFFF#16 = ~~~ s.readRM16 x := BitVec.xor_allOnes
    exact ⟨_, rfl, hnot ▸ writeOp16_moves s x _⟩

end Sys2Proof.Claims
end

section
/-! PROOFS. Rotations of bit vectors: they add up, and a rotation by one place as a shift that takes in the bit it loses. -/

namespace Sys2Proof.Claims

section
variable {w : Nat}

/-- A bit of a rotated value, its place counted modulo the width (`BitVec.getMsbD_rotateLeft` for the other direction). -/
theorem getLsbD_rotateRight_eq_mod (x : BitVec w) (r i : Nat) :
    (x.rotateRight r).getLsbD i = (decide (i < w) && x.getLsbD ((r + i) % w)) := by
  by_cases hi : i < w
  · have hmod : i % w = i := Nat.mod_eq_of_lt hi
    have hr : r % w < w := Nat.mod_lt _ (by omega)
    simp only [BitVec.getLsbD_rotateRight, hi, decide_true, Bool.true_and]
    by_cases hlow : i < w - r % w
    · have hsum : (r + i) % w = r % w + i % w := Nat.add_mod_of_add_mod_lt (by omega)
      rw [decide_eq_true hlow, cond_true, hsum, hmod]
    · have hsum : (r + i) % w + w = r % w + i % w := Nat.add_mod_add_of_le_add_mod (by omega)
      have hplace : i - (w - r % w) = (r + i) % w := by omega
      rw [decide_eq_false hlow, cond_false, hplace]
  · rw [BitVec.getLsbD_of_ge _ _ (by omega), decide_eq_false hi, Bool.false_and]

theorem rotateLeft_rotateLeft (x : BitVec w) (m n : Nat) : (x.rotateLeft m).rotateLeft n = x.rotateLeft (m + n) := by
  refine BitVec.eq_of_getMsbD_eq fun i hi => ?_
  have hlt : (n + i) % w < w := Nat.mod_lt _ (by omega)
  simp only [BitVec.getMsbD_rotateLeft, hlt, decide_true, Bool.true_and, Nat.add_mod_mod, Nat.add_assoc]

theorem rotateRight_rotateRight (x : BitVec w) (m n : Nat) :
    (x.rotateRight m).rotateRight n = x.rotateRight (m + n) := by
  refine BitVec.eq_of_getLsbD_eq fun i hi => ?_
  have hlt : (n + i) % w < w := Nat.mod_lt _ (by omega)
  simp only [getLsbD_rotateRight_eq_mod, hlt, decide_true, Bool.true_and, Nat.add_mod_mod, Nat.add_assoc]

theorem iterate_rotateLeft_one (x : BitVec w) (n : Nat) :
    (fun y : BitVec w => y.rotateLeft 1)^[n] x = x.rotateLeft n := by
  induction n with
  | zero => simp [BitVec.rotateLeft_def, BitVec.ushiftRight_eq_zero]
  | succ n ih => rw [Function.iterate_succ_apply', ih, rotateLeft_rotateLeft]

theorem iterate_rotateRight_one (x : BitVec w) (n : Nat) :
    (fun y : BitVec w => y.rotateRight 1)^[n] x = x.rotateRight n := by
  induction n with
  | zero => simp [BitVec.rotateRight_def]
  | succ n ih => rw [Function.iterate_succ_apply', ih, rotateRight_rotateRight]

/-- Rotated left by one, a value takes in its own top bit. -/
theorem shiftConcat_msb (hw : 1 < w) (v : BitVec w) : v.shiftConcat v.msb = v.rotateLeft 1 := by
  refine BitVec.eq_of_getLsbD_eq fun i hi => ?_
  rw [BitVec.getLsbD_shiftConcat, BitVec.getLsbD_rotateLeft_of_le hw, BitVec.msb_eq_getLsbD_last]
  by_cases hzero : i = 0
  · simp [hzero, show 0 < w by omega]
  · simp [hzero]

/-- A ring of a bit above a value, rotated left by one: the value takes in the bit and gives its own top bit. -/
theorem cons_shiftConcat (hw : 0 < w) (v : BitVec w) (b : Bool) :
    BitVec.cons v.msb (v.shiftConcat b) = (BitVec.cons b v).rotateLeft 1 := by
  refine BitVec.eq_of_getLsbD_eq fun i hi => ?_
  rw [BitVec.getLsbD_cons, BitVec.getLsbD_shiftConcat, BitVec.getLsbD_rotateLeft_of_le (by omega)]
  by_cases htop : i = w
  · simp [htop, hw, hw.ne', show w - 1 ≠ w by omega, BitVec.getElem_cons, BitVec.msb_eq_getLsbD_last]
  · by_cases hzero : i = 0
    · simp [hzero, hw, hw.ne, BitVec.getElem_cons]
    · simp [htop, hzero, hi, show i < w by omega, show i - 1 ≠ w by omega, BitVec.getLsbD_cons]

/-- Rotated right by one, a ring's low bit goes to the top and all others one place down. -/
theorem cons_extractLsb' (hw : 0 < w) (x : BitVec (w + 1)) :
    BitVec.cons (x.getLsbD 0) (x.extractLsb' 1 w) = x.rotateRight 1 := by
  refine BitVec.eq_of_getLsbD_eq fun i hi => ?_
  rw [BitVec.getLsbD_cons, BitVec.getLsbD_extractLsb', BitVec.getLsbD_rotateRight_of_lt (by omega)]
  by_cases htop : i = w
  · simp [htop]
  · simp [htop, show i < w by omega]

/-- Rotated right by one, a value takes in its own low bit at the top. -/
theorem extractLsb'_cons_lsb (hw : 1 < w) (v : BitVec w) :
    (BitVec.cons (v.getLsbD 0) v).extractLsb' 1 w = v.rotateRight 1 := by
  refine BitVec.eq_of_getLsbD_eq fun i hi => ?_
  rw [BitVec.getLsbD_extractLsb', BitVec.getLsbD_cons, BitVec.getLsbD_rotateRight_of_lt hw]
  by_cases htop : 1 + i = w
  · simp [htop, hi, show ¬ i < w - 1 by omega, show i - (w - 1) = 0 by omega]
  · simp [htop, hi, show i < w - 1 by omega]

end
end Sys2Proof.Claims
end

section
/-! PROOFS. The values and flags of the seven shifts and rotates by an effective count, in closed form (R332 to R339). -/

namespace Sys2Proof.Claims

open Sys2Proof Sys2Proof.Machine

section
variable {w : Nat}

/-! ## The closed forms -/

/-- The result and the flags but AF of SHL of `v` by `c` (R332). -/
def ShlResult (v : BitVec w) (c : Nat) (r : BitVec w) (f : Flags) : Prop :=
  Szp r f ∧ r.toNat = v.toNat * 2 ^ c % 2 ^ w ∧ f.cf = (decide (c ≤ w) && v.getLsbD (w - c)) ∧
    (c = 1 → f.of = (r.msb ^^ f.cf))

/-- The result and the flags but AF of SHR of `v` by `c` (R333). -/
def ShrResult (v : BitVec w) (c : Nat) (r : BitVec w) (f : Flags) : Prop :=
  Szp r f ∧ r.toNat = v.toNat / 2 ^ c ∧ f.cf = v.getLsbD (c - 1) ∧ (c = 1 → f.of = v.msb)

/-- The result and the flags but AF of SAR of `v` by `c` (R334). -/
def SarResult (v : BitVec w) (c : Nat) (r : BitVec w) (f : Flags) : Prop :=
  Szp r f ∧ r.toInt = v.toInt / 2 ^ c ∧ f.cf = v.getLsbD (min (c - 1) (w - 1)) ∧ (c = 1 → f.of = false)

/-- The result, CF and OF of ROL of `v` by `c` (R335). -/
def RolResult (v : BitVec w) (c : Nat) (r : BitVec w) (f : Flags) : Prop :=
  r = v.rotateLeft c ∧ f.cf = r.getLsbD 0 ∧ (c = 1 → f.of = (r.msb ^^ f.cf))

/-- The result, CF and OF of ROR of `v` by `c` (R336). -/
def RorResult (v : BitVec w) (c : Nat) (r : BitVec w) (f : Flags) : Prop :=
  r = v.rotateRight c ∧ f.cf = r.msb ∧ (c = 1 → f.of = (r.msb ^^ r.getLsbD (w - 2)))

/-- The result, CF and OF of RCL of `v` and the CF before by `c`: a ring with CF above the value (R337). -/
def RclResult (cf : Bool) (v : BitVec w) (c : Nat) (r : BitVec w) (f : Flags) : Prop :=
  BitVec.cons f.cf r = (BitVec.cons cf v).rotateLeft c ∧ (c = 1 → f.of = (r.msb ^^ f.cf))

/-- The result, CF and OF of RCR of `v` and the CF before by `c` (R338). -/
def RcrResult (cf : Bool) (v : BitVec w) (c : Nat) (r : BitVec w) (f : Flags) : Prop :=
  BitVec.cons f.cf r = (BitVec.cons cf v).rotateRight c ∧ (c = 1 → f.of = (cf ^^ v.msb))

/-! ## Repeated steps -/

section
variable {one : BitVec w → Bool → BitVec w × Bool}

/-- If one step turns what `image` sees of the value and CF, `n` steps turn it `n` times. -/
theorem shiftLoop_iterate {α : Type} {image : BitVec w → Bool → α} {turn : α → α}
    (hstep : ∀ v cf, image (one v cf).1 (one v cf).2 = turn (image v cf)) (n : Nat) (v : BitVec w) (cf : Bool) :
    image (shiftLoop one n v cf).1 (shiftLoop one n v cf).2 = turn^[n] (image v cf) := by
  induction n generalizing v cf with
  | zero => rfl
  | succ n ih => rw [Function.iterate_succ_apply, ← hstep, ← ih, shiftLoop]

/-- What holds after any one step holds after one or more. -/
theorem shiftLoop_last {P : BitVec w → Bool → Prop} (hstep : ∀ v cf, P (one v cf).1 (one v cf).2) {n : Nat}
    (hn : n ≠ 0) (v : BitVec w) (cf : Bool) : P (shiftLoop one n v cf).1 (shiftLoop one n v cf).2 := by
  induction n generalizing v cf with
  | zero => exact absurd rfl hn
  | succ n ih =>
    by_cases hzero : n = 0
    · subst hzero
      exact hstep v cf
    · exact ih hzero _ _

end

/-! ## One step of a rotate

ROL and ROR are RCL and RCR with the bit they lose in the place of CF. -/

theorem rolOne_eq_rclOne (v : BitVec w) (cf : Bool) : rolOne v cf = rclOne v v.msb := rfl

theorem rorOne_eq_rcrOne (v : BitVec w) (cf : Bool) : rorOne v cf = rcrOne v (v.getLsbD 0) := rfl

theorem rclOne_value (v : BitVec w) (cf : Bool) : (rclOne v cf).1 = v.shiftConcat cf := by
  apply BitVec.eq_of_toNat_eq
  rw [BitVec.toNat_shiftConcat, Nat.shiftLeft_eq]
  exact BitVec.toNat_ofNat _ _

theorem rcrOne_value (hw : 0 < w) (v : BitVec w) (cf : Bool) :
    (rcrOne v cf).1 = (BitVec.cons cf v).extractLsb' 1 w := by
  apply BitVec.eq_of_toNat_eq
  obtain ⟨k, rfl⟩ : ∃ k, w = k + 1 := ⟨w - 1, by omega⟩
  rw [BitVec.extractLsb'_toNat, BitVec.toNat_cons', Nat.shiftRight_eq_div_pow, Nat.shiftLeft_eq]
  refine (BitVec.toNat_ofNat _ _).trans (congrArg (· % _) ?_)
  rw [Nat.pow_succ, Nat.add_sub_cancel, ← Nat.mul_assoc]
  omega

/-- RCR brings CF in at the top. -/
theorem rcrOne_msb (hw : 0 < w) (v : BitVec w) (cf : Bool) : (rcrOne v cf).1.msb = cf := by
  rw [rcrOne_value hw, BitVec.msb_eq_getLsbD_last, BitVec.getLsbD_extractLsb', BitVec.getLsbD_cons,
    if_pos (by omega), decide_eq_true (by omega), Bool.true_and]

/-- RCR moves the top bit one place down. -/
theorem rcrOne_getLsbD_second (hw : 1 < w) (v : BitVec w) (cf : Bool) : (rcrOne v cf).1.getLsbD (w - 2) = v.msb := by
  rw [rcrOne_value (by omega), BitVec.msb_eq_getLsbD_last, BitVec.getLsbD_extractLsb', BitVec.getLsbD_cons,
    if_neg (by omega), decide_eq_true (by omega), Bool.true_and, show 1 + (w - 2) = w - 1 by omega]

theorem rolOne_rotates (hw : 1 < w) (v : BitVec w) (cf : Bool) : (rolOne v cf).1 = v.rotateLeft 1 := by
  rw [rolOne_eq_rclOne, rclOne_value, shiftConcat_msb hw]

theorem rorOne_rotates (hw : 1 < w) (v : BitVec w) (cf : Bool) : (rorOne v cf).1 = v.rotateRight 1 := by
  rw [rorOne_eq_rcrOne, rcrOne_value (by omega), extractLsb'_cons_lsb hw]

theorem rclOne_rotates (hw : 0 < w) (v : BitVec w) (cf : Bool) :
    BitVec.cons (rclOne v cf).2 (rclOne v cf).1 = (BitVec.cons cf v).rotateLeft 1 := by
  rw [rclOne_value]
  exact cons_shiftConcat hw v cf

theorem rcrOne_rotates (hw : 0 < w) (v : BitVec w) (cf : Bool) :
    BitVec.cons (rcrOne v cf).2 (rcrOne v cf).1 = (BitVec.cons cf v).rotateRight 1 := by
  rw [rcrOne_value hw, ← cons_extractLsb' hw, BitVec.getLsbD_cons, if_neg hw.ne]
  rfl

/-- CF after ROL is the bit that came in at the bottom. -/
theorem rolOne_cf (hw : 0 < w) (v : BitVec w) (cf : Bool) : (rolOne v cf).2 = (rolOne v cf).1.getLsbD 0 := by
  rw [rolOne_eq_rclOne, rclOne_value, BitVec.getLsbD_shiftConcat, decide_eq_true hw, if_pos rfl, Bool.true_and]
  rfl

/-- CF after ROR is the bit that came in at the top. -/
theorem rorOne_cf (hw : 0 < w) (v : BitVec w) (cf : Bool) : (rorOne v cf).2 = (rorOne v cf).1.msb :=
  (rcrOne_msb hw v (v.getLsbD 0)).symm

/-! ## Any count -/

section
variable (v : BitVec w) (cf : Bool) {c : Nat} (hc : c ≠ 0) (f : Flags) (d : Nat)

theorem rclN_result (hw : 0 < w) : RclResult cf v c (rclN v cf c).1 ((rclN v cf c).2.apply f d) :=
  ⟨(shiftLoop_iterate (image := fun v cf => BitVec.cons cf v) (rclOne_rotates hw) c v cf).trans
    (iterate_rotateLeft_one _ c), fun hone => by subst hone; rfl⟩

theorem rcrN_result (hw : 1 < w) : RcrResult cf v c (rcrN v cf c).1 ((rcrN v cf c).2.apply f d) := by
  refine ⟨(shiftLoop_iterate (image := fun v cf => BitVec.cons cf v) (rcrOne_rotates (by omega)) c v cf).trans
    (iterate_rotateRight_one _ c), fun hone => ?_⟩
  subst hone
  exact congrArg₂ Bool.xor (rcrOne_msb (by omega) v cf) (rcrOne_getLsbD_second hw v cf)

-- A ring turned by a count of 0 is unchanged; the other closed forms speak of a count of at least 1.
include hc

theorem shlN_result (hw : 0 < w) : ShlResult v c (shlN v cf c).1 ((shlN v cf c).2.apply f d) := by
  obtain ⟨hvalue, hcf⟩ := shlLoop hw c v cf
  refine ⟨szp_of_setSZP _ _ _ _, ?_, hcf hc, fun hone => by subst hone; rfl⟩
  rw [shlN, hvalue, BitVec.toNat_shiftLeft, Nat.shiftLeft_eq]

theorem shrN_result : ShrResult v c (shrN v cf c).1 ((shrN v cf c).2.apply f d) := by
  obtain ⟨hvalue, hcf⟩ := shrLoop c v cf
  refine ⟨szp_of_setSZP _ _ _ _, ?_, hcf hc, fun hone => by subst hone; rfl⟩
  rw [shrN, hvalue, BitVec.toNat_ushiftRight, Nat.shiftRight_eq_div_pow]

theorem sarN_result (hw : 0 < w) : SarResult v c (sarN v cf c).1 ((sarN v cf c).2.apply f d) := by
  obtain ⟨hvalue, hcf⟩ := sarLoop hw c v cf
  refine ⟨szp_of_setSZP _ _ _ _, ?_, hcf hc, fun hone => by subst hone; rfl⟩
  rw [sarN, hvalue, BitVec.toInt_sshiftRight, Int.shiftRight_eq_div_pow, Nat.cast_pow, Nat.cast_ofNat]

theorem rolN_result (hw : 1 < w) : RolResult v c (rolN v cf c).1 ((rolN v cf c).2.apply f d) :=
  ⟨(shiftLoop_iterate (image := fun v _ => v) (rolOne_rotates hw) c v cf).trans (iterate_rotateLeft_one v c),
    shiftLoop_last (P := fun v cf => cf = v.getLsbD 0) (rolOne_cf (by omega)) hc v cf, fun hone => by subst hone; rfl⟩

theorem rorN_result (hw : 1 < w) : RorResult v c (rorN v cf c).1 ((rorN v cf c).2.apply f d) :=
  ⟨(shiftLoop_iterate (image := fun v _ => v) (rorOne_rotates hw) c v cf).trans (iterate_rotateRight_one v c),
    shiftLoop_last (P := fun v cf => cf = v.msb) (rorOne_cf (by omega)) hc v cf, fun hone => by subst hone; rfl⟩

end
end

/-! ## The forms (R330, R331) -/

section
variable (s : State) {f : ShiftFn} (g : ShiftForm)

/-- SF, ZF, PF and AF are as before. -/
def SzpaSame (s t : State) : Prop :=
  t.flags.sf = s.flags.sf ∧ t.flags.zf = s.flags.zf ∧ t.flags.pf = s.flags.pf ∧ t.flags.af = s.flags.af

/-- A rotate keeps SF, ZF, PF and AF in every form (R339). -/
theorem szpaSame_rotate
    (hf : ∀ {w : Nat} (v : BitVec w) (cf : Bool) (c : Nat), ∃ cf' of', (f v cf c).2 = rotateFlags cf' of') :
    SzpaSame s (s.shift f g) := by
  have hset : ∀ t : State, (∃ (w : Nat) (v : BitVec w) (c : Nat),
      t.flags = (f v s.flags.cf c).2.apply s.flags s.draws) → SzpaSame s t := by
    intro t ⟨w, v, c, hflags⟩
    obtain ⟨cf', of', heffect⟩ := hf v s.flags.cf c
    rw [SzpaSame, hflags, heffect]
    exact ⟨rfl, rfl, rfl, rfl⟩
  obtain ⟨-, -, hsame, -⟩ := shift_spec s f g (p8 := fun _ _ => True) (p16 := fun _ _ => True) (P := SzpaSame s)
    ⟨rfl, rfl, rfl, rfl⟩ hset (fun _ _ _ _ => trivial) fun _ _ _ _ => trivial
  exact hsame

variable {P : {w : Nat} → BitVec w → Nat → BitVec w → Flags → Prop}
  (h8 : ∀ (v : Byte) (c : Nat), c ≠ 0 → P v c (f v s.flags.cf c).1 ((f v s.flags.cf c).2.apply s.flags s.draws))
  (h16 : ∀ (v : Word) (c : Nat), c ≠ 0 → P v c (f v s.flags.cf c).1 ((f v s.flags.cf c).2.apply s.flags s.draws))
include h8 h16

/-- A shift or rotate whose result and flags are as `P` says of its operand and its count. -/
theorem shift_result :
    OnlyData s (s.shift f g) ∧ ControlFlagsSame s (s.shift f g) ∧
      shiftHolds s
        (fun x c => (c = 0 → s.shift f g = s) ∧
          (c ≠ 0 → ∃ r, Writes8 s (s.shift f g) x r ∧ P (s.readRM8 x) c r (s.shift f g).flags))
        (fun x c => (c = 0 → s.shift f g = s) ∧
          (c ≠ 0 → ∃ r, Writes16 s (s.shift f g) x r ∧ P (s.readRM16 x) c r (s.shift f g).flags)) g := by
  refine (shift_spec s f g (P := fun _ => True) trivial (fun _ _ => trivial) (fun x c hzero hrun => ?_)
    fun x c hzero hrun => ?_).imp_right (.imp_right And.right)
  · refine ⟨hzero, fun hc => ?_⟩
    obtain ⟨hwrites, hflags⟩ := hrun hc
    exact ⟨_, hwrites, hflags ▸ h8 _ c hc⟩
  · refine ⟨hzero, fun hc => ?_⟩
    obtain ⟨hwrites, hflags⟩ := hrun hc
    exact ⟨_, hwrites, hflags ▸ h16 _ c hc⟩

/-- A rotate whose result and flags are as `P` says of its operand and its count. -/
theorem rotate_result
    (hf : ∀ {w : Nat} (v : BitVec w) (cf : Bool) (c : Nat), ∃ cf' of', (f v cf c).2 = rotateFlags cf' of') :
    OnlyData s (s.shift f g) ∧ ControlFlagsSame s (s.shift f g) ∧ (s.shift f g).flags.sf = s.flags.sf ∧
      (s.shift f g).flags.zf = s.flags.zf ∧ (s.shift f g).flags.pf = s.flags.pf ∧
      (s.shift f g).flags.af = s.flags.af ∧
      shiftHolds s
        (fun x c => (c = 0 → s.shift f g = s) ∧
          (c ≠ 0 → ∃ r, Writes8 s (s.shift f g) x r ∧ P (s.readRM8 x) c r (s.shift f g).flags))
        (fun x c => (c = 0 → s.shift f g = s) ∧
          (c ≠ 0 → ∃ r, Writes16 s (s.shift f g) x r ∧ P (s.readRM16 x) c r (s.shift f g).flags)) g := by
  obtain ⟨hdata, hcontrol, hholds⟩ := shift_result s g h8 h16
  obtain ⟨hsf, hzf, hpf, haf⟩ := szpaSame_rotate s g hf
  exact ⟨hdata, hcontrol, hsf, hzf, hpf, haf, hholds⟩

end
end Sys2Proof.Claims
end

section
/-! PROOFS. The obligations of `43_logic_shift.md`. -/

open Sys2Proof Sys2Proof.Machine Sys2Proof.Claims

/-- Settles O41: three logical results written, one discarded, and NOT as an exclusive or. -/
theorem logicResults : Obligations.LogicResults := by
  unfold Obligations.LogicResults
  refine fun s => ⟨fun f => ⟨_, rfl, ?_⟩, fun f => ⟨_, rfl, ?_⟩, fun f => ⟨_, rfl, ?_⟩, fun f => ⟨_, exec_test f s, ?_⟩,
    not_moves s⟩
  · exact alu_logic s (f := aluAnd) (fun _ _ _ => rfl) f
  · exact alu_logic s (f := aluOr) (fun _ _ _ => rfl) f
  · exact alu_logic s (f := aluXor) (fun _ _ _ => rfl) f
  · rw [← aluHolds_testAluForm]
    exact aluDiscard_spec s aluAnd (testAluForm f) (fun _ _ hflags => hflags ▸ logicFlags_logicN _ _ _)
      fun _ _ hflags => hflags ▸ logicFlags_logicN _ _ _

/-- Settles O42, from the closed form of SHL at both widths. -/
theorem shlClosedForm : Obligations.ShlClosedForm := by
  unfold Obligations.ShlClosedForm
  exact fun s g => ⟨_, rfl, shift_result s g (P := ShlResult) (fun v _ hc => shlN_result v _ hc _ _ (by decide))
    fun v _ hc => shlN_result v _ hc _ _ (by decide)⟩

/-- Settles O43, from the closed forms of SHR and SAR at both widths. -/
theorem shrAndSarClosedForm : Obligations.ShrAndSarClosedForm := by
  unfold Obligations.ShrAndSarClosedForm
  exact fun s g =>
    ⟨⟨_, rfl, shift_result s g (P := ShrResult) (fun v _ hc => shrN_result v _ hc _ _)
      fun v _ hc => shrN_result v _ hc _ _⟩,
    ⟨_, rfl, shift_result s g (P := SarResult) (fun v _ hc => sarN_result v _ hc _ _ (by decide))
      fun v _ hc => sarN_result v _ hc _ _ (by decide)⟩⟩

/-- Settles O44: each step rotates the value by one place, and the last one sets CF. -/
theorem rolAndRorClosedForm : Obligations.RolAndRorClosedForm := by
  unfold Obligations.RolAndRorClosedForm
  exact fun s g =>
    ⟨⟨_, rfl, rotate_result s g (P := RolResult) (fun v _ hc => rolN_result v _ hc _ _ (by decide))
      (fun v _ hc => rolN_result v _ hc _ _ (by decide)) fun _ _ _ => ⟨_, _, rfl⟩⟩,
    ⟨_, rfl, rotate_result s g (P := RorResult) (fun v _ hc => rorN_result v _ hc _ _ (by decide))
      (fun v _ hc => rorN_result v _ hc _ _ (by decide)) fun _ _ _ => ⟨_, _, rfl⟩⟩⟩

/-- Settles O45: each step rotates the ring of CF and the value by one place. -/
theorem rclAndRcrRing : Obligations.RclAndRcrRing := by
  unfold Obligations.RclAndRcrRing
  exact fun s g =>
    ⟨⟨_, rfl, rotate_result s g (P := RclResult s.flags.cf) (fun v _ _ => rclN_result v _ _ _ (by decide))
      (fun v _ _ => rclN_result v _ _ _ (by decide)) fun _ _ _ => ⟨_, _, rfl⟩⟩,
    ⟨_, rfl, rotate_result s g (P := RcrResult s.flags.cf) (fun v _ _ => rcrN_result v _ _ _ (by decide))
      (fun v _ _ => rcrN_result v _ _ _ (by decide)) fun _ _ _ => ⟨_, _, rfl⟩⟩⟩

end

section
/-! PROOFS. One element of a string instruction: no repetition without a prefix (R361), and how SI and DI move (R360). -/

namespace Sys2Proof.Claims

open Sys2Proof Sys2Proof.Machine

/-- Without a repeat prefix a string instruction is its body (R361). -/
theorem stringOp_of_no_rep {s : State} (h : s.pfx.rep = none) (c : Bool) (body : State → State) :
    s.stringOp c body = body s := by
  simp only [State.stringOp, h]

/-- The step depends on DF alone (R360). -/
theorem strStep_eq_elemStep {s u : State} (h : u.flags.df = s.flags.df) (n : Word) : u.strStep n = elemStep s n := by
  unfold State.strStep elemStep
  rw [h]
  cases s.flags.df <;> rfl

/-- An index register moved by the step of DF, after an operation that left it and DF as they were (R360). -/
theorem index_moves {s u : State} {l : List Reg16} (hregs : RegsSameBut s u l) (hdf : u.flags.df = s.flags.df) (n : Word)
    {r : Reg16} (hr : r ∉ l) :
    RegsSameBut s (u.setReg16 r (u.reg16 r + u.strStep n)) (l ++ [r]) ∧
      (u.setReg16 r (u.reg16 r + u.strStep n)).reg16 r = s.reg16 r + elemStep s n := by
  refine ⟨fun q hq => ?_, ?_⟩
  · obtain ⟨hql, hqr⟩ : q ∉ l ∧ q ≠ r := by simpa using hq
    rw [State.reg16_setReg16, if_neg hqr.symm, hregs q hql]
  · rw [State.reg16_setReg16, if_pos rfl, hregs r hr, strStep_eq_elemStep hdf]

/-- DI moved after an operation that left the registers and DF as they were. -/
theorem stepDi_moves {s u : State} (hregs : u.regs = s.regs) (hdf : u.flags.df = s.flags.df) (n : Word) :
    RegsSameBut s (u.stepDi n) [.di] ∧ (u.stepDi n).reg16 .di = s.reg16 .di + elemStep s n :=
  index_moves (.of_regs hregs []) hdf n (by simp)

/-- SI and DI moved after an operation that left the registers and DF as they were. -/
theorem stepSiDi_moves {s u : State} (hregs : u.regs = s.regs) (hdf : u.flags.df = s.flags.df) (n : Word) :
    RegsSameBut s ((u.stepSi n).stepDi n) [.si, .di] ∧
      ((u.stepSi n).stepDi n).reg16 .si = s.reg16 .si + elemStep s n ∧
      ((u.stepSi n).stepDi n).reg16 .di = s.reg16 .di + elemStep s n := by
  obtain ⟨hsame, hsi⟩ := index_moves (.of_regs hregs []) hdf n (r := .si) (by simp)
  obtain ⟨hsame, hdi⟩ := index_moves hsame hdf n (r := .di) (by simp)
  exact ⟨hsame, hsi, hdi⟩

end Sys2Proof.Claims
end

section
/-! PROOFS. The repetition of a string instruction (R361): its unrolling and an induction rule for whole runs. -/

namespace Sys2Proof.Machine

open Sys2Proof

/-- One element of a string instruction leaves what the repetition looks at, the prefixes and CX. -/
structure KeepsCount (body : State → State) : Prop where
  pfx : ∀ s, (body s).pfx = s.pfx
  cx  : ∀ s, (body s).reg16 .cx = s.reg16 .cx

/-- One element done and counted: the prefix stays and CX is one less (R361). -/
theorem KeepsCount.counted {body : State → State} (h : KeepsCount body) (s : State) :
    (body s).decCx.pfx.rep = s.pfx.rep ∧ (body s).decCx.reg16 .cx = s.reg16 .cx - 1#16 :=
  ⟨congrArg PrefixState.rep (h.pfx s), by rw [State.decCx, State.reg16_setReg16, if_pos rfl, h.cx]⟩

theorem noteUnmapped_regs (s : State) (l : List UnmappedAccess) : (s.noteUnmapped l).regs = s.regs := by
  unfold State.noteUnmapped
  split <;> rfl

/-! A port access leaves the general registers, with a handler and without (R77). -/

theorem portIn8_regs (s : State) (port : Word) : (s.portIn8 port).2.regs = s.regs := by
  unfold State.portIn8
  split
  · exact noteUnmapped_regs _ _
  · rfl

theorem portIn16_regs (s : State) (port : Word) : (s.portIn16 port).2.regs = s.regs := by
  unfold State.portIn16
  split
  · exact noteUnmapped_regs _ _
  · rfl

theorem portOut8_regs (s : State) (port : Word) (v : Byte) : (s.portOut8 port v).regs = s.regs := by
  unfold State.portOut8
  split
  · exact noteUnmapped_regs _ _
  · rfl

theorem portOut16_regs (s : State) (port v : Word) : (s.portOut16 port v).regs = s.regs := by
  unfold State.portOut16
  split
  · exact noteUnmapped_regs _ _
  · rfl

/-- The fourteen string instructions, each with its body and whether it compares (R362 to R366, R488, R489). -/
def stringTable : List (Instr × (State → State) × Bool) :=
  [(.movsb, movsbBody, false), (.movsw, movswBody, false), (.lodsb, lodsbBody, false), (.lodsw, lodswBody, false),
    (.stosb, stosbBody, false), (.stosw, stoswBody, false), (.cmpsb, cmpsbBody, true), (.cmpsw, cmpswBody, true),
    (.scasb, scasbBody, true), (.scasw, scaswBody, true), (.insb, insbBody, false), (.insw, inswBody, false),
    (.outsb, outsbBody, false), (.outsw, outswBody, false)]

theorem keepsCount_stosbBody : KeepsCount stosbBody := ⟨fun _ => rfl, fun _ => rfl⟩

theorem keepsCount_scasbBody : KeepsCount scasbBody := ⟨fun _ => rfl, fun _ => rfl⟩

theorem keepsCount_insbBody : KeepsCount insbBody :=
  ⟨fun s => (benign_insbBody.kept s).pfx, fun s => (congrArg Regs.cx (portIn8_regs s (s.reg16 .dx)) :)⟩

theorem keepsCount_inswBody : KeepsCount inswBody :=
  ⟨fun s => (benign_inswBody.kept s).pfx, fun s => (congrArg Regs.cx (portIn16_regs s (s.reg16 .dx)) :)⟩

theorem keepsCount_outsbBody : KeepsCount outsbBody :=
  ⟨fun s => (benign_outsbBody.kept s).pfx, fun s => (congrArg Regs.cx (portOut8_regs s (s.reg16 .dx) s.srcByte) :)⟩

theorem keepsCount_outswBody : KeepsCount outswBody :=
  ⟨fun s => (benign_outswBody.kept s).pfx, fun s => (congrArg Regs.cx (portOut16_regs s (s.reg16 .dx) s.srcWord) :)⟩

/-- Each of the fourteen is its body under the shared repetition, and its body leaves the count to the repetition. -/
theorem stringTable_repeats : ∀ p ∈ stringTable,
    (∀ s, exec p.1 s = .next (s.stringOp p.2.2 p.2.1)) ∧ KeepsCount p.2.1 := by
  simp only [stringTable, List.forall_mem_cons]
  refine ⟨?movsb, ?movsw, ?lodsb, ?lodsw, ?stosb, ?stosw, ?cmpsb, ?cmpsw, ?scasb, ?scasw, ?insb, ?insw, ?outsb, ?outsw,
    List.forall_mem_nil _⟩
  case insb => exact ⟨fun _ => rfl, keepsCount_insbBody⟩
  case insw => exact ⟨fun _ => rfl, keepsCount_inswBody⟩
  case outsb => exact ⟨fun _ => rfl, keepsCount_outsbBody⟩
  case outsw => exact ⟨fun _ => rfl, keepsCount_outswBody⟩
  all_goals exact ⟨fun _ => rfl, fun _ => rfl, fun _ => rfl⟩

/-- The comparison's end, read off the kind of the prefix and ZF (R361). -/
theorem repStops_iff {k : RepKind} {zf : Bool} :
    repStops k zf = true ↔ k = .repe ∧ zf = false ∨ k = .repne ∧ zf = true := by
  cases k <;> simp [repStops]

theorem repStops_eq_false_iff {k : RepKind} {zf : Bool} :
    repStops k zf = false ↔ k = .repe ∧ zf = true ∨ k = .repne ∧ zf = false := by
  cases k <;> simp [repStops]

@[simp] theorem State.decCx_flags (s : State) : s.decCx.flags = s.flags := rfl

section
variable {s : State} {k : RepKind} {c : Bool} {body : State → State}

/-- With CX = 0 nothing happens (R361 a). -/
theorem stringOp_of_cx_zero (hrep : s.pfx.rep = some k) (hcx : s.reg16 .cx = 0#16) : s.stringOp c body = s := by
  simp only [State.stringOp, hrep]
  exact repLoop_cx_zero k c body _ hcx

/-- With CX not 0, one element is done and CX goes down; a compare may end it, and else the instruction is done again (R361). -/
theorem stringOp_of_cx_ne (hbody : KeepsCount body) (hrep : s.pfx.rep = some k) (hcx : s.reg16 .cx ≠ 0#16) :
    s.stringOp c body =
      if c && repStops k (body s).flags.zf then (body s).decCx else (body s).decCx.stringOp c body := by
  obtain ⟨hrep', hcx'⟩ := hbody.counted s
  have hcount : (s.reg16 .cx).toNat = ((body s).decCx.reg16 .cx).toNat + 1 := by
    rw [hcx']
    bv_omega
  simp only [State.stringOp, hrep, hrep', hcount]
  exact repLoop_cx_ne k c body _ hcx

/-- The induction on CX: an invariant of the loop head that holds at the start gives, where the loop ends, what it gives
at CX = 0 or where a compare ends it. -/
theorem stringOp_induction (hbody : KeepsCount body) {I Q : State → Prop}
    (hdone : ∀ t, I t → t.reg16 .cx = 0#16 → Q t)
    (hstep : ∀ t, I t → t.reg16 .cx ≠ 0#16 →
      if c && repStops k (body t).flags.zf then Q (body t).decCx else I (body t).decCx)
    (hrep : s.pfx.rep = some k) (hstart : I s) : Q (s.stringOp c body) := by
  induction hn : (s.reg16 .cx).toNat generalizing s with
  | zero =>
    have hcx : s.reg16 .cx = 0#16 := BitVec.eq_of_toNat_eq hn
    rw [stringOp_of_cx_zero hrep hcx]
    exact hdone s hstart hcx
  | succ n ih =>
    have hcx : s.reg16 .cx ≠ 0#16 := fun h => by simp [h] at hn
    have hnext := hstep s hstart hcx
    rw [stringOp_of_cx_ne hbody hrep hcx]
    split at hnext
    · rwa [if_pos ‹_›]
    · obtain ⟨hrep', hcx'⟩ := hbody.counted s
      rw [if_neg ‹_›]
      exact ih (hrep'.trans hrep) hnext (by rw [hcx']; bv_omega)

end
end Sys2Proof.Machine
end

section
/-! PROOFS. A walk up the bytes at ES:DI under a repeat prefix with DF = 0, the storing one of STOSB and the comparing one of
SCASB (R360, R361, R364, R366). -/

namespace Sys2Proof.Claims

open Sys2Proof Sys2Proof.Machine

/-- `t` is `s` after `j` elements of one byte at ES:DI, memory and status flags apart: DI is `j` up and CX is `j` down. -/
structure Walked (s : State) (j : Nat) (t : State) : Prop where
  data    : OnlyData s t
  control : ControlFlagsSame s t
  regs    : RegsSameBut s t [.cx, .di]
  cx      : (t.reg16 .cx).toNat + j = (s.reg16 .cx).toNat
  di      : t.reg16 .di = s.reg16 .di + BitVec.ofNat 16 j

section
variable {s t u : State} {j : Nat}

theorem Walked.start (s : State) : Walked s 0 s where
  data := onlyData_refl s
  control := ⟨rfl, rfl, rfl⟩
  regs _ _ := rfl
  cx := rfl
  di := by simp

theorem OnlyData.trans (h : OnlyData s t) (h' : OnlyData t u) : OnlyData s u := by
  unfold OnlyData ControlSame at *
  simp only [h, h', and_self]

theorem ControlFlagsSame.trans (h : ControlFlagsSame s t) (h' : ControlFlagsSame t u) : ControlFlagsSame s u := by
  unfold ControlFlagsSame at *
  simp only [h, h', and_self]

theorem ControlFlagsSame.df (h : ControlFlagsSame s t) : t.flags.df = s.flags.df := by
  obtain ⟨-, -, hdf⟩ := h
  exact hdf

theorem Walked.es (h : Walked s j t) : t.sreg .es = s.sreg .es := by
  obtain ⟨hsregs, -⟩ := h.data
  rw [State.sreg, hsregs]
  rfl

theorem Walked.al (h : Walked s j t) : t.reg8 .al = s.reg8 .al := congrArg loByte (h.regs .ax (by decide))

theorem Walked.cx_eq_zero_iff (h : Walked s j t) : t.reg16 .cx = 0#16 ↔ j = (s.reg16 .cx).toNat := by
  have hcx := h.cx
  constructor <;> intro h <;> bv_omega

/-- All elements done: DI is CX up. -/
theorem Walked.di_end (h : Walked s (s.reg16 .cx).toNat t) : t.reg16 .di = s.reg16 .di + s.reg16 .cx := by
  simpa using h.di

/-- One more element, which first leaves the registers as they are (`u`) and then moves DI and CX (R360, R361). -/
theorem Walked.step (h : Walked s j t) (hdf : s.flags.df = false) (hcx : t.reg16 .cx ≠ 0#16) (hdata : OnlyData t u)
    (hcontrol : ControlFlagsSame t u) (hregs : u.regs = t.regs) : Walked s (j + 1) (u.stepDi 1#16).decCx := by
  have hup : elemStep t 1#16 = 1#16 := if_pos (h.control.df.trans hdf)
  obtain ⟨hsame, hdi⟩ := stepDi_moves hregs hcontrol.df 1#16
  have hreg : ∀ r, (u.stepDi 1#16).decCx.reg16 r =
      if .cx = r then t.reg16 .cx - 1#16 else (u.stepDi 1#16).reg16 r := fun r => by
    rw [State.decCx, State.reg16_setReg16, hsame .cx (by simp)]
  have hcount := h.cx
  refine ⟨h.data.trans hdata, h.control.trans hcontrol, fun r hr => ?_, ?_, ?_⟩
  · obtain ⟨hrcx, hrdi⟩ : r ≠ .cx ∧ r ≠ .di := by simpa using hr
    rw [hreg, if_neg hrcx.symm, hsame r (by simpa using hrdi), h.regs r hr]
  · rw [hreg, if_pos rfl]
    bv_omega
  · rw [hreg, if_neg (by decide), hdi, hup, h.di, BitVec.add_assoc]
    simp [BitVec.ofNat_add]

/-! ## The storing walk (R366) -/

/-- The bytes walked over hold AL, and no other byte and no flag has changed. -/
structure Filled (s : State) (j : Nat) (t : State) : Prop extends Walked s j t where
  flags  : t.flags = s.flags
  filled : ∀ i, i < j → t.readByte (s.sreg .es) (s.reg16 .di + BitVec.ofNat 16 i) = s.reg8 .al
  frame  : MemSameBut s t ((List.range j).map fun i => phys (s.sreg .es) (s.reg16 .di + BitVec.ofNat 16 i))

theorem Filled.start (s : State) : Filled s 0 s where
  toWalked := .start s
  flags := rfl
  filled _ h := absurd h (Nat.not_lt_zero _)
  frame := .of_mem rfl _

/-- One element of STOSB on the way up. -/
theorem Filled.step (h : Filled s j t) (hdf : s.flags.df = false) (hcx : t.reg16 .cx ≠ 0#16) :
    Filled s (j + 1) (stosbBody t).decCx := by
  have hread : ∀ sg off, (stosbBody t).decCx.readByte sg off =
      if phys (s.sreg .es) (s.reg16 .di + BitVec.ofNat 16 j) = phys sg off then s.reg8 .al else t.readByte sg off :=
    fun sg off => by
      rw [← h.es, ← h.di, ← h.al]
      exact readByte_writeByte _ _ _ _ _ _
  refine ⟨h.toWalked.step hdf hcx (onlyData_refl t) ⟨rfl, rfl, rfl⟩ rfl, h.flags, fun i hi => ?_, fun sg off hout => ?_⟩
  · rw [hread]
    split
    · rfl
    · next hne => exact h.filled i ((Nat.lt_succ_iff_lt_or_eq.1 hi).resolve_right fun heq => hne (by rw [heq]))
  · rw [List.range_succ, List.map_append, List.mem_append, not_or] at hout
    obtain ⟨hbefore, hlast⟩ := hout
    rw [hread, if_neg (by simpa [eq_comm] using hlast), h.frame sg off hbefore]

/-! ## The comparing walk (R364) -/

/-- None of the first `j` bytes at ES:DI is AL. -/
def NoneEqual (s : State) (j : Nat) : Prop :=
  ∀ i, i < j → s.readByte (s.sreg .es) (s.reg16 .di + BitVec.ofNat 16 i) ≠ s.reg8 .al

/-- The walk goes on: no byte walked over is AL, memory is as before, and ZF says so if there was one. -/
structure Scanned (s : State) (j : Nat) (t : State) : Prop extends Walked s j t where
  mem  : t.mem = s.mem
  none : NoneEqual s j
  zf   : j ≠ 0 → t.flags.zf = false

/-- The walk ended just after the byte `j`, the first one that is AL. -/
structure Found (s : State) (j : Nat) (t : State) : Prop extends Walked s (j + 1) t where
  mem   : t.mem = s.mem
  none  : NoneEqual s j
  equal : s.readByte (s.sreg .es) (s.reg16 .di + BitVec.ofNat 16 j) = s.reg8 .al
  zf    : t.flags.zf = true

theorem Scanned.start (s : State) : Scanned s 0 s where
  toWalked := .start s
  mem := rfl
  none _ h := absurd h (Nat.not_lt_zero _)
  zf h := absurd rfl h

/-- ZF after one element of SCASB tells whether its byte is AL. -/
theorem scasbBody_zf_iff (t : State) :
    (scasbBody t).flags.zf = true ↔ t.readByte (t.sreg .es) (t.reg16 .di) = t.reg8 .al :=
  (subN_result8 _ _ false t.flags t.draws).zf_iff.trans eq_comm

/-- One element of SCASB on the way up: the byte is AL and the walk is at its end, or it is not and the walk goes on. -/
theorem Scanned.step (h : Scanned s j t) (hdf : s.flags.df = false) (hcx : t.reg16 .cx ≠ 0#16) :
    if (scasbBody t).flags.zf then Found s j (scasbBody t).decCx else Scanned s (j + 1) (scasbBody t).decCx := by
  have hwalk : Walked s (j + 1) (scasbBody t).decCx :=
    h.toWalked.step hdf hcx (onlyData_refl t) (controlFlags_applyFlags t _) rfl
  have hzf := scasbBody_zf_iff t
  rw [h.al, h.es, h.di, readByte_of_mem h.mem] at hzf
  split
  · next hyes => exact ⟨hwalk, h.mem, h.none, hzf.1 hyes, hyes⟩
  · next hno =>
    refine ⟨hwalk, h.mem, fun i hi => ?_, fun _ => Bool.eq_false_iff.2 hno⟩
    rcases Nat.lt_succ_iff_lt_or_eq.1 hi with hi | rfl
    · exact h.none i hi
    · exact mt hzf.2 hno

end
end Sys2Proof.Claims
end

section
/-! PROOFS. The obligations of `44_string.md`. -/

open Sys2Proof Sys2Proof.Machine Sys2Proof.Claims

/-- Settles O46: the element stored or loaded, then the index registers moved. -/
theorem stringMovesOneElement : Obligations.StringMovesOneElement := by
  unfold Obligations.StringMovesOneElement
  intro s hrep
  have run := fun body => congrArg (Host.Outcome.next : State → Result) (stringOp_of_no_rep hrep false body)
  refine ⟨⟨_, run movsbBody, ?movsb⟩, ⟨_, run movswBody, ?movsw⟩, ⟨_, run lodsbBody, ?lodsb⟩, ⟨_, run lodswBody, ?lodsw⟩,
    ⟨_, run stosbBody, ?stosb⟩, ⟨_, run stoswBody, ?stosw⟩⟩
  case movsb =>
    obtain ⟨hregs, hsi, hdi⟩ := stepSiDi_moves (s := s) (u := s.storeByte s.srcByte) rfl rfl 1#16
    exact ⟨onlyData_refl s, rfl, hregs, hsi, hdi, readByte_writeByte_same _ _ _ _, memSameBut_writeByte s _ _ _⟩
  case movsw =>
    obtain ⟨hregs, hsi, hdi⟩ := stepSiDi_moves (s := s) (u := s.storeWord s.srcWord) rfl rfl 2#16
    exact ⟨onlyData_refl s, rfl, hregs, hsi, hdi, readWord_writeWord_same _ _ _ _, memSameBut_writeWord s _ _ _⟩
  case lodsb =>
    obtain ⟨-, -, hal, hhalves, hax, hmem⟩ := writeOp8_moves s (.reg .al) s.srcByte
    obtain ⟨hregs, hsi⟩ := index_moves hax rfl 1#16 (r := .si) (by decide)
    exact ⟨onlyData_refl s, rfl, hregs, hsi, hal, hhalves .ah (by decide), hmem⟩
  case lodsw =>
    obtain ⟨-, -, hax, hsame, hmem⟩ := writeOp16_moves s (.reg .ax) s.srcWord
    obtain ⟨hregs, hsi⟩ := index_moves hsame rfl 2#16 (r := .si) (by decide)
    exact ⟨onlyData_refl s, rfl, hregs, hsi, hax, hmem⟩
  case stosb =>
    obtain ⟨hregs, hdi⟩ := stepDi_moves (s := s) (u := s.storeByte (s.reg8 .al)) rfl rfl 1#16
    exact ⟨onlyData_refl s, rfl, hregs, hdi, readByte_writeByte_same _ _ _ _, memSameBut_writeByte s _ _ _⟩
  case stosw =>
    obtain ⟨hregs, hdi⟩ := stepDi_moves (s := s) (u := s.storeWord (s.reg16 .ax)) rfl rfl 2#16
    exact ⟨onlyData_refl s, rfl, hregs, hdi, readWord_writeWord_same _ _ _ _, memSameBut_writeWord s _ _ _⟩

/-- Settles O47: the flags of a subtraction, then the index registers moved. -/
theorem stringComparesOneElement : Obligations.StringComparesOneElement := by
  unfold Obligations.StringComparesOneElement
  intro s hrep
  have run := fun body => congrArg (Host.Outcome.next : State → Result) (stringOp_of_no_rep hrep true body)
  refine ⟨⟨_, (subN s.srcByte s.dstByte false).1, run cmpsbBody, ?cmpsb⟩,
    ⟨_, (subN s.srcWord s.dstWord false).1, run cmpswBody, ?cmpsw⟩,
    ⟨_, (subN (s.reg8 .al) s.dstByte false).1, run scasbBody, ?scasb⟩,
    ⟨_, (subN (s.reg16 .ax) s.dstWord false).1, run scaswBody, ?scasw⟩⟩
  case cmpsb =>
    obtain ⟨hregs, hsi, hdi⟩ := stepSiDi_moves (s := s) (u := s.aluFlags8 aluSub s.srcByte s.dstByte) rfl rfl 1#16
    exact ⟨onlyData_refl s, ⟨rfl, rfl, rfl⟩, hregs, hsi, hdi, .of_mem rfl _, subN_result8 _ _ false s.flags s.draws⟩
  case cmpsw =>
    obtain ⟨hregs, hsi, hdi⟩ := stepSiDi_moves (s := s) (u := s.aluFlags16 aluSub s.srcWord s.dstWord) rfl rfl 2#16
    exact ⟨onlyData_refl s, ⟨rfl, rfl, rfl⟩, hregs, hsi, hdi, .of_mem rfl _, subN_result16 _ _ false s.flags s.draws⟩
  case scasb =>
    obtain ⟨hregs, hdi⟩ := stepDi_moves (s := s) (u := s.aluFlags8 aluSub (s.reg8 .al) s.dstByte) rfl rfl 1#16
    exact ⟨onlyData_refl s, ⟨rfl, rfl, rfl⟩, hregs, hdi, .of_mem rfl _, subN_result8 _ _ false s.flags s.draws⟩
  case scasw =>
    obtain ⟨hregs, hdi⟩ := stepDi_moves (s := s) (u := s.aluFlags16 aluSub (s.reg16 .ax) s.dstWord) rfl rfl 2#16
    exact ⟨onlyData_refl s, ⟨rfl, rfl, rfl⟩, hregs, hdi, .of_mem rfl _, subN_result16 _ _ false s.flags s.draws⟩

/-- Settles O49: the loop unrolled once, for each row of the table of string instructions. -/
theorem repeatUnrolls : Obligations.RepeatUnrolls := by
  unfold Obligations.RepeatUnrolls
  intro s k hrep p hp
  obtain ⟨hrun, hbody⟩ := stringTable_repeats p hp
  refine ⟨fun hcx => ?_, fun hcx => ?_⟩
  · rw [hrun, stringOp_of_cx_zero hrep hcx]
  · have ht : (p.2.1 s).setReg16 .cx (s.reg16 .cx - 1#16) = (p.2.1 s).decCx := by rw [State.decCx, hbody.cx]
    simp only [ht, hrun, stringOp_of_cx_ne hbody hrep hcx, State.decCx_flags, ← repStops_iff, ← repStops_eq_false_iff]
    refine ⟨fun hcompares hstops => ?_, fun hgoes => ?_⟩
    · simp [hcompares, hstops]
    · rcases hgoes with hplain | hgoes
      · simp [hplain]
      · simp [hgoes]

/-- Settles O50: by induction on CX, the bytes walked over hold AL. -/
theorem repStosbFills : Obligations.RepStosbFills := by
  unfold Obligations.RepStosbFills
  intro s k hrep hdf
  obtain ⟨hfilled, hcx⟩ : Filled s (s.reg16 .cx).toNat (s.stringOp false stosbBody) ∧
      (s.stringOp false stosbBody).reg16 .cx = 0#16 :=
    stringOp_induction keepsCount_stosbBody (I := fun t => ∃ j, Filled s j t)
      (Q := fun t => Filled s (s.reg16 .cx).toNat t ∧ t.reg16 .cx = 0#16)
      (fun t ⟨j, h⟩ hcx => ⟨h.cx_eq_zero_iff.1 hcx ▸ h, hcx⟩)
      (fun t ⟨j, h⟩ hcx => (if_neg Bool.false_ne_true).mpr ⟨j + 1, h.step hdf hcx⟩) hrep ⟨0, .start s⟩
  exact ⟨_, rfl, hfilled.data, hfilled.flags, hcx, hfilled.di_end, hfilled.regs, hfilled.filled, hfilled.frame⟩

/-- Settles O51: by induction on CX, no byte walked over is AL until one is. -/
theorem repneScasbFindsFirst : Obligations.RepneScasbFindsFirst := by
  unfold Obligations.RepneScasbFindsFirst
  intro s hrep hdf
  have hends : (∃ j, Found s j (s.stringOp true scasbBody)) ∨
      Scanned s (s.reg16 .cx).toNat (s.stringOp true scasbBody) := by
    refine stringOp_induction keepsCount_scasbBody (I := fun t => ∃ j, Scanned s j t)
      (Q := fun t => (∃ j, Found s j t) ∨ Scanned s (s.reg16 .cx).toNat t)
      (fun t ⟨j, h⟩ hcx => .inr (h.cx_eq_zero_iff.1 hcx ▸ h)) (fun t ⟨j, h⟩ hcx => ?_) hrep ⟨0, .start s⟩
    have hstep := h.step hdf hcx
    simp only [repStops, Bool.true_and]
    split at hstep
    · rw [if_pos ‹_›]
      exact .inl ⟨j, hstep⟩
    · rw [if_neg ‹_›]
      exact ⟨j + 1, hstep⟩
  rcases hends with ⟨i, h⟩ | h
  · have hcx := h.cx
    refine ⟨_, rfl, h.data, h.control, h.regs, .of_mem h.mem _, fun j _ hnone hequal => ?_, fun hnone => ?_⟩
    · obtain rfl : i = j := by
        rcases Nat.lt_trichotomy i j with hlt | heq | hlt
        · exact absurd h.equal (hnone i hlt)
        · exact heq
        · exact absurd hequal (h.none j hlt)
      exact ⟨h.zf, h.di, by omega⟩
    · exact absurd h.equal (hnone i (by omega))
  · refine ⟨_, rfl, h.data, h.control, h.regs, .of_mem h.mem _, fun j hj _ hequal => ?_, fun _ => ?_⟩
    · exact absurd hequal (h.none j hj)
    · exact ⟨h.cx_eq_zero_iff.2 rfl, h.di_end, fun hne => h.zf fun h0 => hne (BitVec.eq_of_toNat_eq h0)⟩

end

section
/-! PROOFS. The stack over calls, returns and interrupts: a push after pushed words (R175), the pops of a return as one move of SP
(R176), and that they undo the pushes. -/

namespace Sys2Proof.Claims

open Sys2Proof Sys2Proof.Machine

/-! ## A register written -/

/-- Of two writes of one register the last one stays. -/
theorem setReg16_setReg16 (s : State) (r : Reg16) (v w : Word) : (s.setReg16 r v).setReg16 r w = s.setReg16 r w := by
  cases r <;> rfl

/-- A register written is that register, and no other (R24). -/
theorem setReg16_moves (s : State) (r : Reg16) (v : Word) :
    (s.setReg16 r v).reg16 r = v ∧ RegsSameBut s (s.setReg16 r v) [r] ∧ MemSameBut s (s.setReg16 r v) [] :=
  writes16_writeOp16 s (.reg r) v

/-- CS put back over whatever a far transfer left in it. -/
theorem setSReg_cs_restores {s t : State} (h : SRegsSameBut s t [.cs]) : setSReg t.sregs .cs (s.sreg .cs) = s.sregs := by
  refine SRegs.ext_get fun r => ?_
  rw [getSReg_setSReg]
  split
  · subst_vars
    rfl
  · exact h r (by simpa [eq_comm] using ‹¬SReg.cs = r›)

/-- A segment register written: the other three are as before. -/
theorem SRegsSameBut.of_setSReg {s t : State} {r : SReg} {v : Word} (h : t.sregs = setSReg s.sregs r v) :
    SRegsSameBut s t [r] := fun q hq => by
  have hne : r ≠ q := by simpa [eq_comm] using hq
  rw [State.sreg, h, getSReg_setSReg, if_neg hne]
  rfl

/-! ## Pushes (R175) -/

/-- One more word pushed, on the same stack. -/
theorem PushedAll.push16 {s t : State} {l : List Word} (h : PushedAll s t l) (hs : t.sreg .ss = s.sreg .ss)
    (hl : l.length < 32767) (v : Word) : PushedAll s (t.push16 v) (l ++ [v]) :=
  h.push (pushed_push16 t v) hs hl

theorem pushedAll_one (s : State) (v : Word) : PushedAll s (s.push16 v) [v] :=
  (PushedAll.nil s).push16 rfl (by simp) v

theorem pushedAll_two (s : State) (v w : Word) : PushedAll s ((s.push16 v).push16 w) [v, w] :=
  (pushedAll_one s v).push16 rfl (by simp) w

/-! ## Calls -/

/-- A near call: the return address pushed, then the jump (R396, R397). -/
theorem callTo_pushes (s : State) (target : Word) : PushedAll s ((s.push16 s.ip).setIp target) [s.ip] ∧
    ((s.push16 s.ip).setIp target).ip = target ∧ ((s.push16 s.ip).setIp target).sregs = s.sregs ∧
    ((s.push16 s.ip).setIp target).flags = s.flags ∧ ControlSame s ((s.push16 s.ip).setIp target) :=
  ⟨(pushedAll_one s s.ip).congr rfl rfl, rfl, rfl, rfl, by simp [ControlSame]⟩

/-- A far call: CS and the return address pushed, then the far jump (R398, R399). -/
theorem callFarTo_pushes (s : State) (sg off : Word) : PushedAll s (s.callFarTo sg off) [s.sreg .cs, s.ip] ∧
    (s.callFarTo sg off).ip = off ∧ (s.callFarTo sg off).sreg .cs = sg ∧ SRegsSameBut s (s.callFarTo sg off) [.cs] ∧
    (s.callFarTo sg off).flags = s.flags ∧ ControlSame s (s.callFarTo sg off) :=
  ⟨(pushedAll_two s _ _).congr rfl rfl, rfl, rfl, .of_setSReg rfl, rfl, by simp [State.callFarTo, ControlSame]⟩

/-- The standard handler's entry: FLAGS, CS and IP pushed, then the far jump (R528). -/
theorem guestVector_pushes (s : State) (n : Byte) :
    PushedAll s (s.guestVector n) [s.flags.image, s.sreg .cs, s.ip] ∧ SRegsSameBut s (s.guestVector n) [.cs] := by
  have hflags : PushedAll s { s.push16 s.flags.image with
      flags := { s.flags with iflag := false, tf := false } } [s.flags.image] :=
    (pushedAll_one s s.flags.image).congr rfl rfl
  exact ⟨((hflags.push16 rfl (by simp) (s.sreg .cs)).push16 rfl (by simp) s.ip).congr rfl rfl, .of_setSReg rfl⟩

/-! ## Returns -/

/-- `Pop16` answers the top word and releases it (R176). -/
theorem pop16_eq (s : State) : s.pop16 = (stackWord s 0, s.release 2#16) := by
  rw [← pop16_value]
  rfl

/-- Two releases are one (R176, R401). -/
theorem release_release (s : State) (j k : Word) : (s.release j).release k = s.release (j + k) := by
  obtain ⟨hsp, -⟩ := setReg16_moves s .sp (s.reg16 .sp + j)
  rw [State.release, State.release, hsp, setReg16_setReg16, BitVec.add_assoc, State.release]

/-- With the top `j` words released, the word `k` words up is the one that stood `j + k` words up. -/
theorem stackWord_release (s : State) (j k : Nat) :
    stackWord (s.release (BitVec.ofNat 16 (2 * j))) k = stackWord s (j + k) := by
  have hsp : s.reg16 .sp + BitVec.ofNat 16 (2 * j) + BitVec.ofNat 16 (2 * k) =
      s.reg16 .sp + BitVec.ofNat 16 (2 * (j + k)) := by
    rw [Nat.mul_add, BitVec.ofNat_add, BitVec.add_assoc]
  rw [stackWord, stackWord, ← hsp]
  rfl

/-- A near return: the top word to IP, one word released (R400). -/
theorem popIp_eq (s : State) : s.popIp = (s.release 2#16).setIp (stackWord s 0) := by
  rw [State.popIp, pop16_eq]

/-- A far return: the top two words to IP and CS, two words released (R402). -/
theorem popIp_popCs_eq (s : State) :
    s.popIp.popCs = (s.release 4#16).setCsIp (stackWord s 1) (stackWord s 0) := by
  have hcs : stackWord s.popIp 0 = stackWord s 1 := by
    rw [popIp_eq]
    exact stackWord_release s 1 0
  have hrelease : s.popIp.release 2#16 = (s.release 4#16).setIp (stackWord s 0) := by
    rw [popIp_eq]
    exact congrArg (·.setIp (stackWord s 0)) (release_release s 2#16 2#16)
  rw [State.popCs, pop16_eq, hcs, hrelease]
  rfl

/-- The return from an interrupt: the top three words to IP, CS and the flags, three words released (R428). -/
theorem interruptReturn_eq (s : State) : s.interruptReturn =
    ((s.release 6#16).setCsIp (stackWord s 1) (stackWord s 0)).setFlagsFromImage (stackWord s 2) := by
  have hflags : stackWord s.popIp.popCs 0 = stackWord s 2 := by
    rw [popIp_popCs_eq]
    exact stackWord_release s 2 0
  have hrelease : s.popIp.popCs.release 2#16 = (s.release 6#16).setCsIp (stackWord s 1) (stackWord s 0) := by
    rw [popIp_popCs_eq]
    exact congrArg (·.setCsIp (stackWord s 1) (stackWord s 0)) (release_release s 4#16 2#16)
  calc s.interruptReturn = s.popIp.popCs.pop16.2.setFlagsFromImage s.popIp.popCs.pop16.1 := rfl
    _ = _ := by rw [pop16_eq, hflags, hrelease]

/-- A near return that releases `k` bytes in all (R400, R401). -/
theorem returnNear_frame (s : State) (k : Word) {t : State} (h : t = (s.release k).setIp (stackWord s 0)) :
    t.ip = stackWord s 0 ∧ t.reg16 .sp = s.reg16 .sp + k ∧ t.sregs = s.sregs ∧ t.flags = s.flags ∧
      RegsSameBut s t [.sp] ∧ MemSameBut s t [] ∧ ControlSame s t := by
  subst h
  obtain ⟨hsp, hregs, hmem⟩ := setReg16_moves s .sp (s.reg16 .sp + k)
  exact ⟨rfl, hsp, rfl, rfl, hregs, hmem, by simp [State.release, ControlSame]⟩

/-- A far return that releases `k` bytes in all (R402, R403). -/
theorem returnFar_frame (s : State) (k : Word) {t : State}
    (h : t = (s.release k).setCsIp (stackWord s 1) (stackWord s 0)) :
    t.ip = stackWord s 0 ∧ t.sreg .cs = stackWord s 1 ∧ t.reg16 .sp = s.reg16 .sp + k ∧ SRegsSameBut s t [.cs] ∧
      t.flags = s.flags ∧ RegsSameBut s t [.sp] ∧ MemSameBut s t [] ∧ ControlSame s t := by
  subst h
  obtain ⟨hsp, hregs, hmem⟩ := setReg16_moves s .sp (s.reg16 .sp + k)
  exact ⟨rfl, rfl, hsp, .of_setSReg rfl, rfl, hregs, hmem, by simp [State.release, ControlSame]⟩

/-! ## A return undoes its pushes -/

section
variable {s t : State} {l : List Word}

/-- Pushed words stand on the stack in reverse, the last one on top (R175, R176). -/
theorem PushedAll.stackWord_eq (h : PushedAll s t l) (hss : t.sreg .ss = s.sreg .ss) {k : Nat} (hk : k < l.length) :
    stackWord t k = l[l.length - 1 - k] := by
  obtain ⟨hsp, -, hwords, -⟩ := h
  have haddr : t.reg16 .sp + BitVec.ofNat 16 (2 * k) =
      s.reg16 .sp - BitVec.ofNat 16 (2 * (l.length - 1 - k + 1)) := by
    rw [hsp, show 2 * l.length = 2 * (l.length - 1 - k + 1) + 2 * k by omega, BitVec.ofNat_add]
    ring
  rw [stackWord, hss, haddr]
  exact hwords _ _

/-- As many words released as were pushed: the registers are back. -/
theorem PushedAll.release_regs (h : PushedAll s t l) : (t.release (BitVec.ofNat 16 (2 * l.length))).regs = s.regs := by
  obtain ⟨hsp, hregs, -, -⟩ := h
  refine Regs.ext_get fun r => ?_
  rw [State.release, State.setReg16_regs, getReg16_setReg16]
  split
  · subst_vars
    rw [hsp]
    exact BitVec.sub_add_cancel _ _
  · exact hregs r (by simpa [eq_comm] using ‹¬Reg16.sp = r›)

end

/-- RET after a near call comes back (R396, R400). -/
theorem popIp_returns {s t : State} (h : PushedAll s t [s.ip]) (hs : t.sregs = s.sregs) :
    t.popIp.ip = s.ip ∧ t.popIp.regs = s.regs ∧ t.popIp.sregs = s.sregs := by
  have hss : t.sreg .ss = s.sreg .ss := congrArg SRegs.ss hs
  rw [popIp_eq]
  exact ⟨h.stackWord_eq hss (k := 0) (by simp), h.release_regs, hs⟩

/-- RETF after a far call comes back (R398, R402). -/
theorem popIp_popCs_returns {s t : State} (h : PushedAll s t [s.sreg .cs, s.ip]) (hs : SRegsSameBut s t [.cs]) :
    t.popIp.popCs.ip = s.ip ∧ t.popIp.popCs.regs = s.regs ∧ t.popIp.popCs.sregs = s.sregs := by
  have hss : t.sreg .ss = s.sreg .ss := hs .ss (by decide)
  have hcs : stackWord t 1 = s.sreg .cs := h.stackWord_eq hss (k := 1) (by simp)
  rw [popIp_popCs_eq, hcs]
  exact ⟨h.stackWord_eq hss (k := 0) (by simp), h.release_regs, setSReg_cs_restores hs⟩

/-- IRET after FLAGS, CS and IP were pushed comes back (R428, R537). -/
theorem interruptReturn_returns {s t : State} (h : PushedAll s t [s.flags.image, s.sreg .cs, s.ip])
    (hs : SRegsSameBut s t [.cs]) :
    t.interruptReturn.regs = s.regs ∧ t.interruptReturn.sregs = s.sregs ∧ t.interruptReturn.ip = s.ip ∧
      t.interruptReturn.flags = s.flags := by
  have hss : t.sreg .ss = s.sreg .ss := hs .ss (by decide)
  have hcs : stackWord t 1 = s.sreg .cs := h.stackWord_eq hss (k := 1) (by simp)
  have hflags : stackWord t 2 = s.flags.image := h.stackWord_eq hss (k := 2) (by simp)
  rw [interruptReturn_eq, hcs, hflags]
  exact ⟨h.release_regs, setSReg_cs_restores hs, h.stackWord_eq hss (k := 0) (by simp), ofImage_image s.flags⟩

end Sys2Proof.Claims
end

section
/-! PROOFS. Jumps and loops (R390, R404, R421), and raising an interrupt by what its slot holds (R525). -/

namespace Sys2Proof.Claims

open Sys2Proof Sys2Proof.Machine

/-- A loop instruction: CX counted down, then a jump on a condition (R421 to R423). -/
theorem loop_frame (s : State) (d : Byte) {c : Bool} {P : Prop} [Decidable P] (h : c = true ↔ P) :
    (s.decCx.jumpIf c d).reg16 .cx = s.reg16 .cx - 1#16 ∧ RegsSameBut s (s.decCx.jumpIf c d) [.cx] ∧
      MemSameBut s (s.decCx.jumpIf c d) [] ∧ (s.decCx.jumpIf c d).flags = s.flags ∧
      (s.decCx.jumpIf c d).sregs = s.sregs ∧ ControlSame s (s.decCx.jumpIf c d) ∧
      (s.decCx.jumpIf c d).ip = if P then s.ip + d.signExtend 16 else s.ip := by
  obtain ⟨hcx, hregs, hmem⟩ := setReg16_moves s .cx (s.reg16 .cx - 1#16)
  rw [jumpIf_eq_setIp h]
  exact ⟨hcx, hregs, hmem, rfl, rfl, by simp [State.decCx, ControlSame], rfl⟩

/-- A conditional jump writes IP (R404). -/
theorem jumpIf_eq (s : State) (c : Bool) (d : Byte) :
    s.jumpIf c d = { s with ip := if c = true then s.ip + d.signExtend 16 else s.ip } :=
  jumpIf_eq_setIp Iff.rfl d

/-- The sixteen conditional jumps, each with its condition; an odd one has the negation of the one before it (R405 to
R420). -/
def jumpTable (f : Flags) (d : Byte) : List (Instr × Bool) :=
  [(.jo d, f.of), (.jno d, !f.of), (.jb d, f.cf), (.jae d, !f.cf), (.je d, f.zf), (.jne d, !f.zf),
    (.jbe d, f.cf || f.zf), (.ja d, !(f.cf || f.zf)), (.js d, f.sf), (.jns d, !f.sf), (.jp d, f.pf), (.jnp d, !f.pf),
    (.jl d, f.sf != f.of), (.jge d, !(f.sf != f.of)), (.jle d, f.zf || (f.sf != f.of)),
    (.jg d, !(f.zf || (f.sf != f.of)))]

/-- Each of the sixteen jumps on its condition. -/
theorem jumpTable_jumps (s : State) (d : Byte) : ∀ p ∈ jumpTable s.flags d, exec p.1 s = .next (s.jumpIf p.2 d) := by
  simp only [jumpTable, List.forall_mem_cons]
  refine ⟨rfl, rfl, rfl, rfl, rfl, rfl, rfl, ?ja, rfl, rfl, rfl, rfl, rfl, ?jge, rfl, ?jg, List.forall_mem_nil _⟩
  case ja =>
    rw [Bool.not_or]
    rfl
  case jge =>
    rw [bne, Bool.not_not]
    rfl
  case jg =>
    rw [Bool.not_or, bne, Bool.not_not]
    rfl

/-- A slot with no handler: at most one record (R524, R525). -/
theorem raiseInterrupt_of_none {s : State} {n : Byte} (h : lookup s.intTable n.toNat = none) : s.raiseInterrupt n =
    if s.cfg.strictDiag = true then { s with diag := s.diag ++ [.unmappedInterrupt s.cs0 s.ip0 n] } else s := by
  rw [State.raiseInterrupt, h]
  rfl

/-- A slot with the standard handler (R525, R528). -/
theorem raiseInterrupt_of_guestVector {s : State} {n : Byte} (h : lookup s.intTable n.toNat = some .guestVector) :
    s.raiseInterrupt n = s.guestVector n := by
  rw [State.raiseInterrupt, h]

/-- A slot with a handler of the environment (R525, R526). -/
theorem raiseInterrupt_of_host {s : State} {n : Byte} {id : Nat} (h : lookup s.intTable n.toNat = some (.host id)) :
    s.raiseInterrupt n = s.applyIntEffect (hostInterrupt id s) := by
  rw [State.raiseInterrupt, h]

/-- Without `STRICT_DIAG` no access that a handler makes is recorded (R524). -/
theorem applyIntEffect_diag_of_not_strict {s : State} (h : s.cfg.strictDiag = false) (e : IntEffect) :
    (s.applyIntEffect e).diag = s.diag := by
  have hdiag : (s.applyIntEffect e).diag = (s.noteUnmapped e.unmapped).diag := rfl
  rw [hdiag, State.noteUnmapped, if_neg (by simp [h])]

end Sys2Proof.Claims
end

section
/-! PROOFS. The obligations of `45_control_transfer.md`. -/

open Sys2Proof Sys2Proof.Machine Sys2Proof.Claims

/-- Settles O16: IRET releases three words, and those that the standard handler's entry pushed are the ones it came with. -/
theorem interruptReturn : Obligations.InterruptReturn := by
  unfold Obligations.InterruptReturn
  refine ⟨fun s => ?_, fun s n hslot => ?_⟩
  · obtain ⟨hip, hcs, hsp, hsregs, -, hregs, hmem, hcontrol⟩ := returnFar_frame s 6#16 rfl
    exact ⟨_, congrArg Host.Outcome.next (interruptReturn_eq s), hip, hcs, image_ofImage _, hsp, hregs, hsregs, hmem,
      hcontrol⟩
  · rw [raiseInterrupt_of_guestVector hslot]
    obtain ⟨hpushed, hsregs⟩ := guestVector_pushes s n
    exact ⟨_, rfl, interruptReturn_returns hpushed hsregs⟩

/-- Settles O53: two near calls and two far calls. -/
theorem callsPushReturnAddress : Obligations.CallsPushReturnAddress := by
  unfold Obligations.CallsPushReturnAddress
  refine fun s => ⟨fun d => ?_, fun x => ?_, fun off sg => ?_, fun m => ?_⟩
  · exact ⟨_, rfl, callTo_pushes s (s.ip + d)⟩
  · exact ⟨_, rfl, callTo_pushes s (s.readRM16 x)⟩
  · exact ⟨_, rfl, callFarTo_pushes s sg off⟩
  · exact ⟨_, rfl, callFarTo_pushes s _ _⟩

/-- Settles O54: a return releases what it pops and its immediate; after a call it pops what the call pushed. -/
theorem returnsAndCallsPair : Obligations.ReturnsAndCallsPair := by
  unfold Obligations.ReturnsAndCallsPair
  refine ⟨fun s k => ⟨?ret, ?retImm, ?retf, ?retfImm⟩, fun s => ⟨fun d t hcall => ?near, fun off sg t hcall => ?far⟩⟩
  case ret => exact ⟨_, rfl, returnNear_frame s 2#16 (popIp_eq s)⟩
  case retImm =>
    have hret : s.popIp.release k = (s.release (2#16 + k)).setIp (stackWord s 0) := by
      rw [popIp_eq, ← release_release]
      rfl
    rw [BitVec.add_assoc]
    exact ⟨_, rfl, returnNear_frame s (2#16 + k) hret⟩
  case retf => exact ⟨_, rfl, returnFar_frame s 4#16 (popIp_popCs_eq s)⟩
  case retfImm =>
    have hret : s.popIp.popCs.release k = (s.release (4#16 + k)).setCsIp (stackWord s 1) (stackWord s 0) := by
      rw [popIp_popCs_eq, ← release_release]
      rfl
    rw [BitVec.add_assoc]
    exact ⟨_, rfl, returnFar_frame s (4#16 + k) hret⟩
  case near =>
    obtain rfl : (s.push16 s.ip).setIp (s.ip + d) = t := Host.Outcome.next.inj hcall
    obtain ⟨hpushed, -, hsregs, -⟩ := callTo_pushes s (s.ip + d)
    exact ⟨_, rfl, popIp_returns hpushed hsregs⟩
  case far =>
    obtain rfl : s.callFarTo sg off = t := Host.Outcome.next.inj hcall
    obtain ⟨hpushed, -, -, hsregs, -⟩ := callFarTo_pushes s sg off
    exact ⟨_, rfl, popIp_popCs_returns hpushed hsregs⟩

/-- Settles O17: by what the slot holds. -/
theorem softwareInterrupts : Obligations.SoftwareInterrupts := by
  unfold Obligations.SoftwareInterrupts
  refine ⟨fun s n => ⟨rfl, rfl, fun hof => ?_, fun hof => ?_⟩, fun s n hslot => ?_, fun s n id hslot => ?_⟩
  · exact congrArg Host.Outcome.next (if_pos hof)
  · exact congrArg Host.Outcome.next (if_neg (by simp [hof]))
  · rw [raiseInterrupt_of_none hslot]
    exact ⟨fun hdiag => if_neg (by simp [hdiag]), fun hdiag => if_pos hdiag⟩
  · have hkept := kept_applyIntEffect s (hostInterrupt id s)
    rw [raiseInterrupt_of_host hslot]
    exact ⟨rfl, rfl, rfl, rfl, rfl, rfl, hkept.pfx, hkept.driver, hkept.cs0, hkept.ip0, hkept.intTable, hkept.portTable,
      hkept.cfg, hkept.diag, fun hoff => applyIntEffect_diag_of_not_strict hoff _⟩

/-- Settles O52: the jumps write IP and CS; the conditional ones by the table of their conditions. -/
theorem jumpTargetsAndConditions : Obligations.JumpTargetsAndConditions := by
  unfold Obligations.JumpTargetsAndConditions
  refine ⟨fun s => ⟨fun _ => rfl, fun _ => rfl, fun _ => rfl, fun _ _ => rfl, fun _ => rfl⟩, fun s d p hp => ?_⟩
  rw [← jumpIf_eq]
  exact jumpTable_jumps s d p hp

/-- Settles O55: the three loops by their conditions on the counted CX, JCXZ by its own. -/
theorem loopsCountCx : Obligations.LoopsCountCx := by
  unfold Obligations.LoopsCountCx
  intro s d
  obtain ⟨hcx, -⟩ : s.decCx.reg16 .cx = s.reg16 .cx - 1#16 ∧ _ := setReg16_moves s .cx _
  refine ⟨⟨_, rfl, loop_frame s d ?loop⟩, ⟨_, rfl, loop_frame s d ?loopz⟩, ⟨_, rfl, loop_frame s d ?loopnz⟩, ?jcxz⟩
  case loop => rw [hcx, bne_iff_ne]
  case loopz => rw [Bool.and_eq_true, hcx, bne_iff_ne, State.decCx_flags]
  case loopnz => rw [Bool.and_eq_true, hcx, bne_iff_ne, State.decCx_flags, Bool.not_eq_true']
  case jcxz => exact congrArg Host.Outcome.next (jumpIf_eq_setIp beq_iff_eq d)

end

section
/-! PROOFS. The obligation of `46_processor_control.md`. -/

/-- Settles O56: each arm of `exec` is one record update, or the state as it came. -/
theorem processorControl : Obligations.ProcessorControl := by
  unfold Obligations.ProcessorControl
  refine ⟨fun s => ?flags, fun s => ?control, fun s => ?prefixes⟩
  case flags => exact ⟨rfl, rfl, rfl, rfl, rfl, rfl, rfl⟩
  case control => exact ⟨rfl, rfl, rfl, fun _ _ _ => rfl⟩
  case prefixes => exact ⟨rfl, rfl, rfl, rfl, rfl, rfl, rfl⟩

end

section
/-! PROOFS. One element of INS and OUTS: a port access, and then the string step of the element (R488, R489). -/

namespace Sys2Proof.Claims

open Sys2Proof Sys2Proof.Machine

/-! ## The element, its port access apart (R360) -/

/-- SI moved, and nothing else. -/
theorem stepSi_moves (s : State) (n : Word) : OnlyData s (s.stepSi n) ∧ (s.stepSi n).flags = s.flags ∧
    RegsSameBut s (s.stepSi n) [.si] ∧ (s.stepSi n).reg16 .si = s.reg16 .si + elemStep s n ∧
    (s.stepSi n).mem = s.mem := by
  obtain ⟨hregs, hsi⟩ := index_moves (s := s) (u := s) (.of_regs rfl []) rfl n (r := .si) (by simp)
  exact ⟨onlyData_refl s, rfl, hregs, hsi, rfl⟩

/-- A byte stored at ES:DI, then DI moved. -/
theorem storeByte_stepDi_moves (s : State) (v : Byte) (n : Word) :
    OnlyData s ((s.storeByte v).stepDi n) ∧ ((s.storeByte v).stepDi n).flags = s.flags ∧
      RegsSameBut s ((s.storeByte v).stepDi n) [.di] ∧
      ((s.storeByte v).stepDi n).reg16 .di = s.reg16 .di + elemStep s n ∧
      ((s.storeByte v).stepDi n).readByte (s.sreg .es) (s.reg16 .di) = v ∧
      MemSameBut s ((s.storeByte v).stepDi n) [phys (s.sreg .es) (s.reg16 .di)] := by
  obtain ⟨hregs, hdi⟩ := stepDi_moves (s := s) (u := s.storeByte v) rfl rfl n
  exact ⟨onlyData_refl s, rfl, hregs, hdi, readByte_writeByte_same _ _ _ _, memSameBut_writeByte s _ _ _⟩

/-- A word stored at ES:DI, then DI moved. -/
theorem storeWord_stepDi_moves (s : State) (v n : Word) :
    OnlyData s ((s.storeWord v).stepDi n) ∧ ((s.storeWord v).stepDi n).flags = s.flags ∧
      RegsSameBut s ((s.storeWord v).stepDi n) [.di] ∧
      ((s.storeWord v).stepDi n).reg16 .di = s.reg16 .di + elemStep s n ∧
      ((s.storeWord v).stepDi n).readWord (s.sreg .es) (s.reg16 .di) = v ∧
      MemSameBut s ((s.storeWord v).stepDi n) (wordAt (s.sreg .es) (s.reg16 .di)) := by
  obtain ⟨hregs, hdi⟩ := stepDi_moves (s := s) (u := s.storeWord v) rfl rfl n
  exact ⟨onlyData_refl s, rfl, hregs, hdi, readWord_writeWord_same _ _ _ _, memSameBut_writeWord s _ _ _⟩

/-! ## The bodies, by whether port DX has a handler (R75, R76) -/

section
variable {s : State}

theorem insbBody_of_no_handler (h : s.readHandler (s.reg16 .dx) = none) :
    insbBody s = ((s.noteUnmapped [.port (s.reg16 .dx)]).storeByte s.cfg.portIdleByte).stepDi 1#16 := by
  simp only [insbBody, State.portIn8, h]

theorem inswBody_of_no_handler (h : s.readHandler (s.reg16 .dx) = none) :
    inswBody s = ((s.noteUnmapped [.port (s.reg16 .dx)]).storeWord s.cfg.portIdleWord).stepDi 2#16 := by
  simp only [inswBody, State.portIn16, h]

theorem outsbBody_of_no_handler (h : s.writeHandler (s.reg16 .dx) = none) :
    outsbBody s = (s.noteUnmapped [.port (s.reg16 .dx)]).stepSi 1#16 := by
  simp only [outsbBody, State.portOut8, h]

theorem outswBody_of_no_handler (h : s.writeHandler (s.reg16 .dx) = none) :
    outswBody s = (s.noteUnmapped [.port (s.reg16 .dx)]).stepSi 2#16 := by
  simp only [outswBody, State.portOut16, h]

variable {id : Nat}

theorem insbBody_of_handler (h : s.readHandler (s.reg16 .dx) = some id) : insbBody s =
    ((s.applyPortEffect (hostPortRead id (s.reg16 .dx) .byte s).2).storeByte
      (loByte (hostPortRead id (s.reg16 .dx) .byte s).1)).stepDi 1#16 := by
  simp only [insbBody, State.portIn8, h]

theorem inswBody_of_handler (h : s.readHandler (s.reg16 .dx) = some id) : inswBody s =
    ((s.applyPortEffect (hostPortRead id (s.reg16 .dx) .word s).2).storeWord
      (hostPortRead id (s.reg16 .dx) .word s).1).stepDi 2#16 := by
  simp only [inswBody, State.portIn16, h]

theorem outsbBody_of_handler (h : s.writeHandler (s.reg16 .dx) = some id) : outsbBody s =
    (s.applyPortEffect (hostPortWrite id (s.reg16 .dx) .byte (zext16 s.srcByte) s)).stepSi 1#16 := by
  simp only [outsbBody, State.portOut8, h]

theorem outswBody_of_handler (h : s.writeHandler (s.reg16 .dx) = some id) : outswBody s =
    (s.applyPortEffect (hostPortWrite id (s.reg16 .dx) .word s.srcWord s)).stepSi 2#16 := by
  simp only [outswBody, State.portOut16, h]

end
end Sys2Proof.Claims
end

section
/-! PROOFS. The stack of PUSHA and POPA: a list of words pushed, and registers loaded from the stack one after the other
(R481, R482). -/

namespace Sys2Proof.Claims

open Sys2Proof Sys2Proof.Machine

theorem OnlyData.sreg {s t : State} (h : OnlyData s t) (r : SReg) : t.sreg r = s.sreg r := by
  obtain ⟨hsregs, -⟩ := h
  rw [State.sreg, hsregs]
  rfl

/-- The words of a list pushed in its order (R175). -/
theorem pushedAll_foldl (s : State) (l : List Word) (hl : l.length ≤ 32767) :
    PushedAll s (l.foldl State.push16 s) l ∧ OnlyData s (l.foldl State.push16 s) ∧
      (l.foldl State.push16 s).flags = s.flags := by
  induction l using List.reverseRecOn with
  | nil => exact ⟨.nil s, onlyData_refl s, rfl⟩
  | append_singleton l v ih =>
    rw [List.length_append, List.length_singleton] at hl
    obtain ⟨hpushed, hdata, hflags⟩ := ih (by omega)
    obtain ⟨hdata', hflags', -⟩ := push16_moves (l.foldl State.push16 s) v
    rw [List.foldl_append]
    exact ⟨hpushed.push16 (hdata.sreg .ss) (by omega) v, hdata.trans hdata', hflags'.trans hflags⟩

/-! ## Pops (R176, R482) -/

/-- The registers `g`, with SP `k` words above the SP of `s`, and all else as in `s`: `k` pops from `s`. -/
def popped (s : State) (g : Regs) (k : Nat) : State :=
  { s with regs := setReg16 g .sp (s.reg16 .sp + BitVec.ofNat 16 (2 * k)) }

theorem popped_zero (s : State) : popped s s.regs 0 = s := by
  have hsp : s.reg16 .sp + BitVec.ofNat 16 (2 * 0) = s.reg16 .sp := by simp
  rw [popped, hsp]
  rfl

/-- The next pop answers the next word (R176). -/
theorem popped_pop16 (s : State) (g : Regs) (k : Nat) :
    (popped s g k).pop16 = (stackWord s k, popped s g (k + 1)) := by
  have hsp : s.reg16 .sp + BitVec.ofNat 16 (2 * k) + 2#16 = s.reg16 .sp + BitVec.ofNat 16 (2 * (k + 1)) := by
    rw [Nat.mul_add, BitVec.ofNat_add, BitVec.add_assoc]
  rw [popped, popped, ← hsp]
  rfl

/-- The next word popped into a register. -/
theorem popped_popInto (s : State) (g : Regs) (k : Nat) {r : Reg16} (hr : r ≠ .sp) :
    (popped s g k).popInto r = popped s (setReg16 g r (stackWord s k)) (k + 1) := by
  rw [State.popInto, popped_pop16]
  cases r with
  | sp => exact absurd rfl hr
  | _ => rfl

/-- The registers that POPA leaves (R482). -/
theorem exec_popa (s : State) : exec .popa s = .next { s with regs :=
    { di := stackWord s 0, si := stackWord s 1, bp := stackWord s 2, bx := stackWord s 4, dx := stackWord s 5
      cx := stackWord s 6, ax := stackWord s 7, sp := s.reg16 .sp + 16#16 } } := by
  conv_lhs => rw [← popped_zero s]
  simp only [exec, execPopa, popped_pop16, popped_popInto, ne_eq, reduceCtorEq, not_false_eq_true, Nat.zero_add,
    Nat.reduceAdd]
  rfl

/-- POPA on what PUSHA pushed (R481, R482). -/
theorem popa_restores {s t : State} (hss : t.sreg .ss = s.sreg .ss) (h : PushedAll s t
    [s.reg16 .ax, s.reg16 .cx, s.reg16 .dx, s.reg16 .bx, s.reg16 .sp, s.reg16 .bp, s.reg16 .si, s.reg16 .di]) :
    ∃ u, exec .popa t = .next u ∧ u.regs = s.regs := by
  refine ⟨_, exec_popa t, Regs.ext_get fun r => ?_⟩
  cases r with
  | di => exact h.stackWord_eq hss (k := 0) (by simp)
  | si => exact h.stackWord_eq hss (k := 1) (by simp)
  | bp => exact h.stackWord_eq hss (k := 2) (by simp)
  | bx => exact h.stackWord_eq hss (k := 4) (by simp)
  | dx => exact h.stackWord_eq hss (k := 5) (by simp)
  | cx => exact h.stackWord_eq hss (k := 6) (by simp)
  | ax => exact h.stackWord_eq hss (k := 7) (by simp)
  | sp => exact (congrArg Regs.sp h.release_regs :)

end Sys2Proof.Claims
end

section
/-! PROOFS. The frame of ENTER (R491): its words are one pushed list, the caller's BP, the copied frame pointers, the new frame
pointer; and LEAVE, which releases it (R492). -/

namespace Sys2Proof.Claims

open Sys2Proof Sys2Proof.Machine

/-! ## The copied frame pointers -/

/-- The `j`-th frame pointer that ENTER copies lies outside the new frame, whose words are one more than its level. -/
def Apart (s : State) (level j : Nat) : Prop :=
  ∀ a ∈ wordAt (s.sreg .ss) (s.reg16 .bp - BitVec.ofNat 16 (2 * j)),
    ∀ i, i ≤ level → a ∉ wordAt (s.sreg .ss) (s.reg16 .sp - 2#16 - BitVec.ofNat 16 (2 * i))

/-- BP has been pushed and the frame pointers `l` copied after it: but for BP, which stands at the last of them, this is a list of
words pushed, each the caller's where that lies outside the new frame. -/
structure Copied (s : State) (level : Nat) (l : List Word) (u : State) : Prop where
  data    : OnlyData s u
  flags   : u.flags = s.flags
  pushed  : PushedAll s (u.setReg16 .bp (s.reg16 .bp)) (s.reg16 .bp :: l)
  bp      : u.reg16 .bp = s.reg16 .bp - BitVec.ofNat 16 (2 * l.length)
  pointer : ∀ k (h : k < l.length), Apart s level (k + 1) →
    l[k] = s.readWord (s.sreg .ss) (s.reg16 .bp - BitVec.ofNat 16 (2 * (k + 1)))

/-- One frame pointer copied (R491). -/
def copyPointer (u : State) : State :=
  (u.setReg16 .bp (u.reg16 .bp - 2#16)).push16 (u.readWord (u.sreg .ss) (u.reg16 .bp - 2#16))

theorem enterLoop_succ (n : Nat) (u : State) : enterLoop (n + 1) u = enterLoop n (copyPointer u) := rfl

/-- The `k + 1`-th word below an offset, counted from the first. -/
theorem sub_succ_word (off : Word) (k : Nat) :
    off - BitVec.ofNat 16 (2 * (k + 1)) = off - 2#16 - BitVec.ofNat 16 (2 * k) := by
  rw [Nat.mul_add, BitVec.ofNat_add]
  ring

theorem sub_word_succ (off : Word) (k : Nat) :
    off - BitVec.ofNat 16 (2 * k) - 2#16 = off - BitVec.ofNat 16 (2 * (k + 1)) := by
  rw [sub_succ_word]
  ring

section
variable {s u : State} {level : Nat} {l : List Word}

theorem Copied.start (s : State) (level : Nat) : Copied s level [] (s.push16 (s.reg16 .bp)) where
  data := by
    obtain ⟨hdata, -⟩ := push16_moves s (s.reg16 .bp)
    exact hdata
  flags := rfl
  pushed := (pushedAll_one s _).congr rfl rfl
  bp := (BitVec.sub_zero _).symm
  pointer _ h := absurd h (Nat.not_lt_zero _)

/-- A word outside the new frame reads as before while the frame is built. -/
theorem Copied.readWord (h : Copied s level l u) (hl : l.length ≤ level) {j : Nat} (hj : Apart s level j) :
    u.readWord (s.sreg .ss) (s.reg16 .bp - BitVec.ofNat 16 (2 * j)) =
      s.readWord (s.sreg .ss) (s.reg16 .bp - BitVec.ofNat 16 (2 * j)) := by
  obtain ⟨-, -, -, hmem⟩ := h.pushed
  refine MemSameBut.readWord (t := u.setReg16 .bp (s.reg16 .bp)) hmem fun a ha hin => ?_
  simp only [sub_succ_word, List.mem_flatMap, List.mem_range, List.length_cons] at hin
  obtain ⟨i, hi, hin⟩ := hin
  exact hj a ha i (by omega) hin

/-- One more frame pointer copied: the word read where BP then stands. -/
theorem Copied.step (h : Copied s level l u) (hl : l.length ≤ level) (hlevel : level < 32) :
    Copied s level (l ++ [u.readWord (s.sreg .ss) (s.reg16 .bp - BitVec.ofNat 16 (2 * (l.length + 1)))])
      (copyPointer u) := by
  have hss := h.data.sreg .ss
  have hbp : u.reg16 .bp - 2#16 = s.reg16 .bp - BitVec.ofNat 16 (2 * (l.length + 1)) := by
    rw [h.bp, sub_word_succ]
  obtain ⟨hdata, hflags, -⟩ := push16_moves (u.setReg16 .bp (u.reg16 .bp - 2#16))
    (u.readWord (u.sreg .ss) (u.reg16 .bp - 2#16))
  rw [← hss, ← hbp]
  refine ⟨h.data.trans hdata, hflags.trans h.flags, ?pushed, ?bp, fun k hk hapart => ?pointer⟩
  case pushed => exact (h.pushed.push16 hss (by simp; omega) _).congr rfl rfl
  case bp =>
    rw [List.length_append, List.length_singleton, ← hbp]
    rfl
  case pointer =>
    rcases Nat.lt_or_ge k l.length with hlt | hge
    · rw [List.getElem_append_left hlt]
      exact h.pointer k hlt hapart
    · obtain rfl : k = l.length := Nat.le_antisymm (by simpa [Nat.lt_succ_iff] using hk) hge
      rw [List.getElem_concat_length rfl, hss, hbp]
      exact h.readWord hl hapart

/-- The loop of ENTER copies `n` more (R491). -/
theorem Copied.loop (hlevel : level < 32) (n : Nat) : ∀ {l : List Word} {u : State}, Copied s level l u →
    l.length + n ≤ level → ∃ l', l'.length = l.length + n ∧ Copied s level l' (enterLoop n u) := by
  induction n with
  | zero => exact fun h _ => ⟨_, rfl, h⟩
  | succ n ih =>
    intro l u h hn
    rw [enterLoop_succ]
    obtain ⟨l', hl', h'⟩ := ih (h.step (by omega) hlevel) (by simp; omega)
    exact ⟨l', by simpa [Nat.add_assoc, Nat.add_comm 1] using hl', h'⟩

end

/-! ## The whole frame -/

/-- The frame of ENTER of a level below 32 in `t`, made from `s` (R491). -/
structure FrameBuilt (s : State) (size : Word) (level : Nat) (t : State) : Prop where
  data    : OnlyData s t
  flags   : t.flags = s.flags
  regs    : RegsSameBut s t [.sp, .bp]
  bp      : t.reg16 .bp = s.reg16 .sp - 2#16
  sp      : t.reg16 .sp = s.reg16 .sp - 2#16 - BitVec.ofNat 16 (2 * level) - size
  saved   : t.readWord (s.sreg .ss) (s.reg16 .sp - 2#16) = s.reg16 .bp
  own     : level ≠ 0 →
    t.readWord (s.sreg .ss) (s.reg16 .sp - 2#16 - BitVec.ofNat 16 (2 * level)) = s.reg16 .sp - 2#16
  pointer : ∀ j, 1 ≤ j → j < level → Apart s level j →
    t.readWord (s.sreg .ss) (s.reg16 .sp - 2#16 - BitVec.ofNat 16 (2 * j)) =
      s.readWord (s.sreg .ss) (s.reg16 .bp - BitVec.ofNat 16 (2 * j))
  mem     : MemSameBut s t ((List.range (level + 1)).flatMap fun i =>
    wordAt (s.sreg .ss) (s.reg16 .sp - 2#16 - BitVec.ofNat 16 (2 * i)))

/-- BP set to the frame and SP moved below it, after the words of the frame were pushed. -/
theorem frameBuilt_of_pushed {s u : State} {l : List Word} {level : Nat} (size : Word) (hlen : l.length = level)
    (hdata : OnlyData s u) (hflags : u.flags = s.flags)
    (hpushed : PushedAll s (u.setReg16 .bp (s.reg16 .bp)) (s.reg16 .bp :: l))
    (hown : ∀ h : l ≠ [], l.getLast h = s.reg16 .sp - 2#16)
    (hpointer : ∀ k (h : k < l.length), k + 1 < level → Apart s level (k + 1) →
      l[k] = s.readWord (s.sreg .ss) (s.reg16 .bp - BitVec.ofNat 16 (2 * (k + 1)))) :
    FrameBuilt s size level ((u.setReg16 .bp (s.reg16 .sp - 2#16)).setReg16 .sp (u.reg16 .sp - size)) := by
  subst hlen
  obtain ⟨hsp, hregs, hwords, hmem⟩ := hpushed
  replace hsp : u.reg16 .sp = s.reg16 .sp - BitVec.ofNat 16 (2 * (l.length + 1)) := hsp
  simp only [sub_succ_word] at hsp hwords hmem
  have hword : ∀ k (h : k < l.length),
      u.readWord (s.sreg .ss) (s.reg16 .sp - 2#16 - BitVec.ofNat 16 (2 * (k + 1))) = l[k] := fun k h =>
    hwords (k + 1) (Nat.succ_lt_succ h)
  refine ⟨hdata, hflags, fun r hr => ?regs, rfl, ?sp, ?saved, fun hne => ?own, fun j hpos hj hapart => ?pointer, hmem⟩
  case regs =>
    obtain ⟨hrsp, hrbp⟩ : r ≠ .sp ∧ r ≠ .bp := by simpa using hr
    have hr' : u.reg16 r = s.reg16 r := by
      rw [← hregs r (by simpa using hrsp), State.reg16_setReg16, if_neg hrbp.symm]
    rw [State.reg16_setReg16, if_neg hrsp.symm, State.reg16_setReg16, if_neg hrbp.symm, hr']
  case sp =>
    rw [← hsp]
    rfl
  case saved =>
    have hslot : s.reg16 .sp - 2#16 - BitVec.ofNat 16 (2 * 0) = s.reg16 .sp - 2#16 := by simp
    exact hslot ▸ hwords 0 (Nat.succ_pos _)
  case own =>
    have hl : l ≠ [] := fun h => hne (by rw [h]; rfl)
    have hlast := hword (l.length - 1) (by omega)
    rw [Nat.sub_add_cancel (by omega), ← List.getLast_eq_getElem hl, hown hl] at hlast
    exact hlast
  case pointer =>
    obtain ⟨k, rfl⟩ := Nat.exists_eq_add_of_le' hpos
    exact (hword k (by omega)).trans (hpointer k (by omega) hj hapart)

/-- ENTER builds its frame (R491). -/
theorem enterAt_builds (s : State) (size : Word) {level : Nat} (hlevel : level < 32) :
    FrameBuilt s size level (enterAt size level (s.reg16 .sp - 2#16) s) := by
  have hstart := Copied.start s level
  cases level with
  | zero =>
    exact frameBuilt_of_pushed size rfl hstart.data hstart.flags hstart.pushed (fun h => absurd rfl h)
      fun _ h => absurd h (Nat.not_lt_zero _)
  | succ n =>
    obtain ⟨l, hl, h⟩ := hstart.loop hlevel n (by simp)
    obtain rfl : l.length = n := by simpa using hl
    obtain ⟨hdata, hflags, -⟩ := push16_moves (enterLoop l.length (s.push16 (s.reg16 .bp))) (s.reg16 .sp - 2#16)
    have hpushed := (h.pushed.push16 (h.data.sreg .ss) (by simp; omega) (s.reg16 .sp - 2#16)).congr rfl rfl
    refine frameBuilt_of_pushed (l := l ++ [s.reg16 .sp - 2#16]) size (by simp) (h.data.trans hdata)
      (hflags.trans h.flags) hpushed (by simp) fun k hk hlt hapart => ?_
    rw [List.getElem_append_left (by omega)]
    exact h.pointer k (by omega) hapart

/-! ## LEAVE -/

/-- LEAVE takes SP from BP and pops BP (R492). -/
theorem leave_releases (s : State) : ∃ t, exec .leave s = .next t ∧ OnlyData s t ∧ t.flags = s.flags ∧
    RegsSameBut s t [.sp, .bp] ∧ MemSameBut s t [] ∧
    t.reg16 .bp = s.readWord (s.sreg .ss) (s.reg16 .bp) ∧ t.reg16 .sp = s.reg16 .bp + 2#16 := by
  obtain ⟨hsp, hregs, -⟩ := setReg16_moves s .sp (s.reg16 .bp)
  obtain ⟨hdata, hflags, hbp, hsp', hregs', hmem⟩ := popInto_moves (s.setReg16 .sp (s.reg16 .bp)) .bp
  refine ⟨_, rfl, hdata, hflags, fun r hr => ?_, hmem, ?_, ?_⟩
  · obtain ⟨hrsp, hrbp⟩ : r ≠ .sp ∧ r ≠ .bp := by simpa using hr
    exact (hregs' r (by simp [hrsp, hrbp])).trans (hregs r (by simpa using hrsp))
  · exact hbp.trans (by simp [stackWord, hsp])
  · exact (hsp' (by decide)).trans (by rw [hsp])

/-- LEAVE in a frame that ENTER built gives back the registers, BP and SP among them (R491, R492). -/
theorem FrameBuilt.leave {s t : State} {size : Word} {level : Nat} (h : FrameBuilt s size level t) :
    ∃ u, exec .leave t = .next u ∧ u.regs = s.regs := by
  obtain ⟨u, hrun, -, -, hregs, -, hbp, hsp⟩ := leave_releases t
  have hbp' : u.reg16 .bp = s.reg16 .bp := by rw [hbp, h.data.sreg, h.bp, h.saved]
  have hsp' : u.reg16 .sp = s.reg16 .sp := by rw [hsp, h.bp, BitVec.sub_add_cancel]
  refine ⟨u, hrun, Regs.ext_get fun r => ?_⟩
  by_cases hr : r ∈ [Reg16.sp, Reg16.bp]
  · obtain rfl | rfl : r = .sp ∨ r = .bp := by simpa using hr
    · exact hsp'
    · exact hbp'
  · exact (hregs r hr).trans (h.regs r hr)

end Sys2Proof.Claims
end

section
/-! PROOFS. The obligations of `47_ext_80186.md`. -/

open Sys2Proof Sys2Proof.Machine Sys2Proof.Claims

/-- Settles O48: a port access, with no handler and with one, and the string step of its element. -/
theorem portStringsOneElement : Obligations.PortStringsOneElement := by
  unfold Obligations.PortStringsOneElement
  intro s hrep es di src si port noted
  have hnoted : s.noteUnmapped [.port port] = noted := noteUnmapped_port s port
  have run : ∀ {body : State → State} {t : State}, body s = t →
      (.next (s.stringOp false body) : Result) = .next t := fun h =>
    congrArg Host.Outcome.next ((stringOp_of_no_rep hrep false _).trans h)
  refine ⟨fun h => ?ins, fun h => ?outs, fun id h => ?insHandled, fun id h => ?outsHandled⟩
  case ins =>
    have hb := insbBody_of_no_handler h
    have hw := inswBody_of_no_handler h
    rw [hnoted] at hb hw
    exact ⟨⟨_, run hb, storeByte_stepDi_moves noted _ _⟩, _, run hw, storeWord_stepDi_moves noted _ _⟩
  case outs =>
    have hb := outsbBody_of_no_handler h
    have hw := outswBody_of_no_handler h
    rw [hnoted] at hb hw
    obtain ⟨hdatab, hflagsb, hregsb, hsib, hmemb⟩ := stepSi_moves noted 1#16
    obtain ⟨hdataw, hflagsw, hregsw, hsiw, hmemw⟩ := stepSi_moves noted 2#16
    exact ⟨⟨_, run hb, hdatab, hflagsb, hregsb, hsib, .of_mem hmemb _⟩,
      _, run hw, hdataw, hflagsw, hregsw, hsiw, .of_mem hmemw _⟩
  case insHandled =>
    exact ⟨⟨_, run (insbBody_of_handler h), storeByte_stepDi_moves _ _ _⟩,
      _, run (inswBody_of_handler h), storeWord_stepDi_moves _ _ _⟩
  case outsHandled =>
    rw [← zext16_eq_ofNat]
    exact ⟨⟨_, run (outsbBody_of_handler h), stepSi_moves _ _⟩, _, run (outswBody_of_handler h), stepSi_moves _ _⟩

/-- Settles O57: eight words pushed as a list, and popped into the registers in the reverse order. -/
theorem pushaAndPopa : Obligations.PushaAndPopa := by
  unfold Obligations.PushaAndPopa
  intro s
  constructor
  · obtain ⟨hpushed, hdata, hflags⟩ := pushedAll_foldl s [s.reg16 .ax, s.reg16 .cx, s.reg16 .dx, s.reg16 .bx, s.reg16 .sp,
      s.reg16 .bp, s.reg16 .si, s.reg16 .di] (by simp)
    exact ⟨_, rfl, hdata, hflags, hpushed, popa_restores (hdata.sreg .ss) hpushed⟩
  · exact ⟨_, exec_popa s, onlyData_refl s, rfl, .of_mem rfl _, rfl, rfl, rfl, rfl, rfl, rfl, rfl, rfl⟩

/-- Settles O58: the two sides of the bounds check. -/
theorem boundChecksIndex : Obligations.BoundChecksIndex := by
  unfold Obligations.BoundChecksIndex
  intro s r m lo hi i
  refine ⟨fun ⟨hlo, hhi⟩ => ?within, fun hout => ?outside⟩
  case within => exact if_neg (not_or.2 ⟨not_lt.2 hlo, not_lt.2 hhi⟩)
  case outside => exact if_pos hout

/-- Settles O59: the frame as one pushed list, and LEAVE in any such frame. -/
theorem enterAndLeaveFrames : Obligations.EnterAndLeaveFrames := by
  unfold Obligations.EnterAndLeaveFrames
  have builds : ∀ (s : State) (size : Word) (level : Byte), ∃ t, exec (.enter size level) s = .next t ∧
      FrameBuilt s size (level.toNat % 32) t := fun s size level =>
    ⟨_, rfl, enterAt_builds s size (Nat.mod_lt _ (by decide))⟩
  refine ⟨fun s size level => ?enter, fun s => ⟨leave_releases s, fun size t hrun => ?leave⟩⟩
  case enter =>
    obtain ⟨t, hrun, h⟩ := builds s size level
    have hzero : level.toNat % 32 = 0 → level &&& 0x1F#8 = 0#8 := fun h0 =>
      BitVec.eq_of_toNat_eq ((and31 level).trans h0)
    rw [and31]
    exact ⟨t, hrun, h.data, h.flags, h.regs, h.bp, h.sp, h.saved, fun hne => h.own (mt hzero hne), h.pointer, h.mem⟩
  case leave =>
    obtain ⟨t', hrun', h⟩ := builds s size 0#8
    obtain rfl : t' = t := Host.Outcome.next.inj (hrun'.symm.trans hrun)
    exact h.leave

end

section
/-! PROOFS. From instructions to bytes and back: what `decode` reads from an opcode byte and the operands after it, whatever
follows them, and from it that it reads the encoding of every well-formed instruction. -/

namespace Sys2Proof

/-! ## Bytes of a list -/

/-- The bytes past the first of two lists are those of the second. -/
theorem byteAt_append_add (l r : List Byte) (k : Nat) : byteAt (l ++ r) (l.length + k) = byteAt r k := by
  rw [byteAt, List.getD_append_right _ _ _ _ (Nat.le_add_right _ _), Nat.add_sub_cancel_left, byteAt]

/-- The byte right after a list. -/
theorem byteAt_append_length (l r : List Byte) : byteAt (l ++ r) l.length = byteAt r 0 := byteAt_append_add l r 0

/-! ## Fields and register numbers -/

@[simp] theorem modOf_modRM (md : BitVec 2) (reg rm : BitVec 3) : modOf (modRM md reg rm) = md := by decide +revert

@[simp] theorem regOf_modRM (md : BitVec 2) (reg rm : BitVec 3) : regOf (modRM md reg rm) = reg := by decide +revert

@[simp] theorem rmOf_modRM (md : BitVec 2) (reg rm : BitVec 3) : rmOf (modRM md reg rm) = rm := by decide +revert

@[simp] theorem Reg8.ofBits_bits (r : Reg8) : Reg8.ofBits r.bits = r := by cases r <;> rfl

@[simp] theorem Reg16.ofBits_bits (r : Reg16) : Reg16.ofBits r.bits = r := by cases r <;> rfl

@[simp] theorem SReg.ofBits_bits (r : SReg) : SReg.ofBits r.bits = some r := by cases r <;> rfl

@[simp] theorem Base.ofBits_bits (c : Base) : Base.ofBits c.bits = c := by cases c <;> rfl

/-- `[BP]` alone has the base number 6 (R97). -/
theorem Base.bits_ne_six {c : Base} (h : c ≠ .bp) : c.bits ≠ 6#3 := by
  cases c with
  | bp => exact absurd rfl h
  | _ => decide

/-! ## Operands (R96 to R98) -/

/-- The bytes of a memory operand are a ModRM byte that names memory, and displacement bytes; both are read back. -/
theorem decodeMem_of_encode {m : MemOp} (h : m.wf = true) (reg : BitVec 3) :
    ∃ c l, m.encode reg = c :: l ∧ regOf c = reg ∧ modOf c ≠ 3#2 ∧
      ∀ rest, decodeMem (modOf c) (rmOf c) (byteAt (l ++ rest)) = (m, l.length) := by
  cases m with
  | direct off => exact ⟨_, _, rfl, by simp, by simp, fun _ => by simp [decodeMem, wordBytes, byteAt]⟩
  | based c d =>
    refine ⟨_, _, rfl, by simp, by cases d <;> simp [Disp.modBits], fun _ => ?_⟩
    cases d with
    | none =>
      have hc : c ≠ .bp := by rintro rfl; exact nomatch h
      simp [decodeMem, Disp.modBits, Disp.bytes, Base.bits_ne_six hc]
    | disp8 v => simp [decodeMem, Disp.modBits, Disp.bytes, byteAt]
    | disp16 v => simp [decodeMem, Disp.modBits, Disp.bytes, wordBytes, byteAt]

/-- The same of a register-or-memory operand; `enc` is either of the two encoders. -/
theorem decodeRM_of_encode {ρ : Type} {ofBits : BitVec 3 → ρ} {bits : ρ → BitVec 3} {enc : BitVec 3 → RM ρ → List Byte}
    (hreg : ∀ reg r, enc reg (.reg r) = [modRM 3#2 reg (bits r)]) (hmem : ∀ reg x, enc reg (.mem x) = x.encode reg)
    (hbits : ∀ r, ofBits (bits r) = r) {x : RM ρ} (h : x.wf = true) (reg : BitVec 3) :
    ∃ c l, enc reg x = c :: l ∧ regOf c = reg ∧ ∀ rest, decodeRM ofBits c (byteAt (l ++ rest)) = (x, l.length) := by
  cases x with
  | reg r => exact ⟨_, _, hreg reg r, by simp, fun _ => by simp [decodeRM, hbits]⟩
  | mem m =>
    obtain ⟨c, l, henc, hc, hmod, hread⟩ := decodeMem_of_encode h reg
    exact ⟨c, l, (hmem reg m).trans henc, hc, fun rest => by simp only [decodeRM, if_neg hmod, hread]⟩

theorem decodeRM8_of_encode {x : RM8} (h : x.wf = true) (reg : BitVec 3) :
    ∃ c l, encodeRM8 reg x = c :: l ∧ regOf c = reg ∧
      ∀ rest, decodeRM Reg8.ofBits c (byteAt (l ++ rest)) = (x, l.length) :=
  decodeRM_of_encode (fun _ _ => rfl) (fun _ _ => rfl) Reg8.ofBits_bits h reg

theorem decodeRM16_of_encode {x : RM16} (h : x.wf = true) (reg : BitVec 3) :
    ∃ c l, encodeRM16 reg x = c :: l ∧ regOf c = reg ∧
      ∀ rest, decodeRM Reg16.ofBits c (byteAt (l ++ rest)) = (x, l.length) :=
  decodeRM_of_encode (fun _ _ => rfl) (fun _ _ => rfl) Reg16.ofBits_bits h reg

/-! ## What an entry of the opcode map reads -/

/-- The bytes `l`, whatever follows them, decode to the instruction `i` and their own length. -/
def ReadAs (lvl : IsaLevel) (l : List Byte) (i : Instr) : Prop :=
  ∀ rest, decode lvl (byteAt (l ++ rest)) = (i, l.length)

variable {lvl : IsaLevel} {op : Byte}

/-! An entry with no ModRM byte, by what follows the opcode byte (R103). -/

theorem readAs_op {i : Instr} (hop : opcodeEntry lvl op = .op i) : ReadAs lvl [op] i := fun rest => by
  simp [decode, byteAt, hop]

theorem readAs_imm8 {i : Byte} {f : Byte → Instr} (hop : opcodeEntry lvl op = .imm8 f) : ReadAs lvl [op, i] (f i) :=
  fun rest => by simp [decode, byteAt, hop]

theorem readAs_imm16 {i : Word} {f : Word → Instr} (hop : opcodeEntry lvl op = .imm16 f) :
    ReadAs lvl (op :: wordBytes i) (f i) :=
  fun rest => by simp [decode, byteAt, wordBytes, hop]

theorem readAs_imm16Imm8 {i : Word} {j : Byte} {f : Word → Byte → Instr} (hop : opcodeEntry lvl op = .imm16Imm8 f) :
    ReadAs lvl (op :: wordBytes i ++ [j]) (f i j) :=
  fun rest => by simp [decode, byteAt, wordBytes, hop]

theorem readAs_ptr {off sg : Word} {f : Word → Word → Instr} (hop : opcodeEntry lvl op = .ptr f) :
    ReadAs lvl (op :: wordBytes off ++ wordBytes sg) (f off sg) :=
  fun rest => by simp [decode, byteAt, wordBytes, hop]

/-! An entry with a ModRM byte, by what its `reg` field says follows (R99, R119). -/

section

variable {g : BitVec 3 → Sub} {reg : BitVec 3} (hop : opcodeEntry lvl op = .modrm g)
include hop

/-- The bytes after a ModRM byte `c` are read as its `reg` field says. -/
theorem decode_modrm (c : Byte) (l : List Byte) :
    decode lvl (byteAt (op :: c :: l)) = decodeSub op c (g (regOf c)) (byteAt l) := by
  rw [decode, show byteAt (op :: c :: l) 0 = op from rfl, hop]
  rfl

theorem readAs_mem {m : MemOp} {f : MemOp → Instr} (hg : g reg = .mem f) (h : m.wf = true) :
    ReadAs lvl (op :: m.encode reg) (f m) := fun rest => by
  obtain ⟨c, l, henc, hc, hmod, hread⟩ := decodeMem_of_encode h reg
  simp only [henc, List.cons_append, decode_modrm hop, hc, hg, decodeSub, if_neg hmod, hread]
  simp
  omega

theorem readAs_rm8 {x : RM8} {f : RM8 → Instr} (hg : g reg = .rm8 f) (h : x.wf = true) :
    ReadAs lvl (op :: encodeRM8 reg x) (f x) := fun rest => by
  obtain ⟨c, l, henc, hc, hread⟩ := decodeRM8_of_encode h reg
  simp only [henc, List.cons_append, decode_modrm hop, hc, hg, decodeSub, hread]
  simp
  omega

theorem readAs_rm16 {x : RM16} {f : RM16 → Instr} (hg : g reg = .rm16 f) (h : x.wf = true) :
    ReadAs lvl (op :: encodeRM16 reg x) (f x) := fun rest => by
  obtain ⟨c, l, henc, hc, hread⟩ := decodeRM16_of_encode h reg
  simp only [henc, List.cons_append, decode_modrm hop, hc, hg, decodeSub, hread]
  simp
  omega

theorem readAs_rm8Imm8 {x : RM8} {i : Byte} {f : RM8 → Byte → Instr} (hg : g reg = .rm8Imm8 f) (h : x.wf = true) :
    ReadAs lvl (op :: encodeRM8 reg x ++ [i]) (f x i) := fun rest => by
  obtain ⟨c, l, henc, hc, hread⟩ := decodeRM8_of_encode h reg
  simp only [henc, List.cons_append, List.append_assoc, decode_modrm hop, hc, hg, decodeSub, hread, byteAt_append_length]
  simp [byteAt]
  omega

theorem readAs_rm16Imm8 {x : RM16} {i : Byte} {f : RM16 → Byte → Instr} (hg : g reg = .rm16Imm8 f) (h : x.wf = true) :
    ReadAs lvl (op :: encodeRM16 reg x ++ [i]) (f x i) := fun rest => by
  obtain ⟨c, l, henc, hc, hread⟩ := decodeRM16_of_encode h reg
  simp only [henc, List.cons_append, List.append_assoc, decode_modrm hop, hc, hg, decodeSub, hread, byteAt_append_length]
  simp [byteAt]
  omega

theorem readAs_rm16Imm16 {x : RM16} {i : Word} {f : RM16 → Word → Instr} (hg : g reg = .rm16Imm16 f)
    (h : x.wf = true) : ReadAs lvl (op :: encodeRM16 reg x ++ wordBytes i) (f x i) := fun rest => by
  obtain ⟨c, l, henc, hc, hread⟩ := decodeRM16_of_encode h reg
  simp only [henc, List.cons_append, List.append_assoc, decode_modrm hop, hc, hg, decodeSub, hread, byteAt_append_length,
    byteAt_append_add]
  simp [wordBytes, byteAt]
  omega

end

/-! ## The fault rows (R121, R123) -/

/-- What follows a ModRM byte with this `mod` field is a decode fault. -/
def Sub.faults (md : BitVec 2) : Sub → Bool
  | .fault => true
  | .mem _ => md == 3#2
  | _ => false

/-- A ModRM byte with these fields is a decode fault after the entry's opcode byte. -/
def Entry.faults (md : BitVec 2) (reg : BitVec 3) : Entry → Bool
  | .modrm g => (g reg).faults md
  | _ => false

/-- A faulting ModRM byte is read as its decode fault row, and nothing after it is read. -/
theorem readAs_decodeFault {m : Byte} (h : (opcodeEntry lvl op).faults (modOf m) (regOf m) = true) :
    ReadAs lvl [op, m] (.decodeFault op m) := fun rest => by
  cases hop : opcodeEntry lvl op with
  | modrm g =>
    rw [hop, Entry.faults] at h
    rw [List.cons_append, List.cons_append, decode_modrm hop]
    cases hsub : g (regOf m) with
    | fault => rfl
    | mem f =>
      rw [hsub] at h
      exact if_pos (eq_of_beq h)
    | _ => exact absurd h (by simp [hsub, Sub.faults])
  | _ => exact absurd h (by simp [hop, Entry.faults])

/-- The opcode bytes with a faulting ModRM byte (R123). -/
theorem mem_of_isDecodeFault {m : Byte} (h : isDecodeFault lvl op m = true) :
    op ∈ [0x62#8, 0x8C#8, 0x8D#8, 0x8E#8, 0x8F#8, 0xC0#8, 0xC1#8, 0xC4#8, 0xC5#8, 0xC6#8, 0xC7#8, 0xD0#8, 0xD1#8, 0xD2#8,
      0xD3#8, 0xF6#8, 0xF7#8, 0xFE#8, 0xFF#8] := by
  have hrange : ∀ c : Byte, 0xD0#8 ≤ c → c ≤ 0xD3#8 → c = 0xD0#8 ∨ c = 0xD1#8 ∨ c = 0xD2#8 ∨ c = 0xD3#8 := by decide
  simp only [isDecodeFault, Bool.or_eq_true, Bool.and_eq_true, beq_iff_eq, decide_eq_true_eq] at h
  simp only [List.mem_cons, List.not_mem_nil, or_false]
  grind

/-- The opcode map lets every ModRM byte of rule R123 fault. -/
theorem faults_of_isDecodeFault {m : Byte} (h : isDecodeFault lvl op m = true) :
    (opcodeEntry lvl op).faults (modOf m) (regOf m) = true := by
  have hop := mem_of_isDecodeFault h
  rw [← isDecodeFault_fields] at h
  generalize modOf m = md at h ⊢
  generalize regOf m = reg at h ⊢
  cases lvl <;> fin_cases hop <;> decide +revert

/-! ## Instructions with several forms -/

/-- The six ALU entries of the row of operation number `o`; `e` is any entry at its two other places (R106). -/
theorem opcodeEntry_aluOp (o : BitVec 3) {k : BitVec 3} (hk : k < 6#3) (e : Entry) :
    opcodeEntry lvl (aluOp o (k.setWidth 8)) = aluRow (group1 o) e e k := by
  cases k using eight_cases with
  | six | seven => exact absurd hk (by decide)
  | _ => cases o using eight_cases <;> rfl

/-- The ten forms of the ALU operation of number `o` (R106, R266). -/
theorem readAs_alu (o : BitVec 3) {f : AluForm} (h : f.wf = true) : ReadAs lvl (encodeAlu o f) (group1 o f) := by
  have hop {k : BitVec 3} (hk : k < 6#3) := opcodeEntry_aluOp (lvl := lvl) o hk (.op .nop)
  cases f with
  | rm8Reg8 x r => apply readAs_rm8 (hop (k := 0#3) (by decide)) (by simp) h
  | rm16Reg16 x r => apply readAs_rm16 (hop (k := 1#3) (by decide)) (by simp) h
  | reg8Rm8 r x => apply readAs_rm8 (hop (k := 2#3) (by decide)) (by simp) h
  | reg16Rm16 r x => apply readAs_rm16 (hop (k := 3#3) (by decide)) (by simp) h
  | alImm8 i => exact readAs_imm8 (hop (k := 4#3) (by decide))
  | axImm16 i => exact readAs_imm16 (hop (k := 5#3) (by decide))
  | rm8Imm8 x i => apply readAs_rm8Imm8 (op := 0x80#8) rfl rfl h
  | rm16Imm16 x i => apply readAs_rm16Imm16 (op := 0x81#8) rfl rfl h
  | rm8Imm8Alias x i => apply readAs_rm8Imm8 (op := 0x82#8) rfl rfl h
  | rm16Imm8 x i => apply readAs_rm16Imm8 (op := 0x83#8) rfl rfl h

/-- The six forms of the shift or rotate of number `n` (R330, R490). -/
theorem readAs_shift {n : BitVec 3} {mk : ShiftForm → Instr} (hmk : shiftGroup n = some mk) {f : ShiftForm}
    (h : f.wf lvl = true) : ReadAs lvl (encodeShift n f) (mk f) := by
  cases f with
  | rm8One x | rm8Cl x => apply readAs_rm8 rfl (by simp only [hmk]) h
  | rm16One x | rm16Cl x => apply readAs_rm16 rfl (by simp only [hmk]) h
  | rm8Imm x i =>
    obtain ⟨rfl, hx⟩ : lvl = .i80186 ∧ x.wf = true := by simpa [ShiftForm.wf] using h
    apply readAs_rm8Imm8 rfl (by simp only [hmk]) hx
  | rm16Imm x i =>
    obtain ⟨rfl, hx⟩ : lvl = .i80186 ∧ x.wf = true := by simpa [ShiftForm.wf] using h
    apply readAs_rm16Imm8 rfl (by simp only [hmk]) hx

/-- The two forms of the unary operation of number `n` (R119). -/
theorem readAs_unary {n : BitVec 3} {mk : UnaryForm → Instr} (h8 : groupF6 n = .rm8 fun x => mk (.rm8 x))
    (h16 : groupF7 n = .rm16 fun x => mk (.rm16 x)) {f : UnaryForm} (h : f.wf = true) :
    ReadAs lvl (encodeUnary n f) (mk f) := by
  cases f with
  | rm8 x => exact readAs_rm8 rfl h8 h
  | rm16 x => exact readAs_rm16 rfl h16 h

/-! MOV of general registers, memory and immediates (R200 to R203). -/

theorem readAs_movRmReg {f : MovForm} (h : f.wf = true) : ReadAs lvl (encode (.movRmReg f)) (.movRmReg f) := by
  cases f with
  | rm8Reg8 x r | reg8Rm8 r x => apply readAs_rm8 rfl (by simp) h
  | rm16Reg16 x r | reg16Rm16 r x => apply readAs_rm16 rfl (by simp) h

theorem readAs_movRmImm {f : RmImmForm} (h : f.wf = true) : ReadAs lvl (encode (.movRmImm f)) (.movRmImm f) := by
  cases f with
  | rm8Imm8 x i => apply readAs_rm8Imm8 rfl rfl h
  | rm16Imm16 x i => apply readAs_rm16Imm16 rfl rfl h

theorem readAs_movRegImm (f : RegImmForm) : ReadAs lvl (encode (.movRegImm f)) (.movRegImm f) := by
  cases f with
  | reg8Imm8 r i => cases r <;> apply readAs_imm8 rfl
  | reg16Imm16 r i => cases r <;> apply readAs_imm16 rfl

theorem readAs_movMoffs (f : MoffsForm) : ReadAs lvl (encode (.movMoffs f)) (.movMoffs f) := by
  cases f <;> apply readAs_imm16 rfl

/-- The two forms of XCHG with an r/m operand (R212). -/
theorem readAs_xchgRm {f : XchgForm} (h : f.wf = true) : ReadAs lvl (encode (.xchgRm f)) (.xchgRm f) := by
  cases f with
  | reg8Rm8 r x => apply readAs_rm8 rfl (by simp) h
  | reg16Rm16 r x => apply readAs_rm16 rfl (by simp) h

/-- The four forms of IN and of OUT (R214, R215). -/
theorem readAs_port (f : PortForm) :
    ReadAs lvl (encode (.inPort f)) (.inPort f) ∧ ReadAs lvl (encode (.outPort f)) (.outPort f) := by
  cases f with
  | byteImm p | wordImm p => constructor <;> apply readAs_imm8 rfl
  | byteDx | wordDx => exact ⟨readAs_op rfl, readAs_op rfl⟩

/-- The three forms of INC and of DEC (R275, R276). -/
theorem readAs_inc_dec {f : IncForm} (h : f.wf = true) :
    ReadAs lvl (encode (.inc f)) (.inc f) ∧ ReadAs lvl (encode (.dec f)) (.dec f) := by
  cases f with
  | reg16 r => cases r <;> exact ⟨readAs_op rfl, readAs_op rfl⟩
  | rm8 x => constructor <;> apply readAs_rm8 rfl rfl h
  | rm16 x => constructor <;> apply readAs_rm16 rfl rfl h

/-- The six forms of TEST (R323). -/
theorem readAs_test {f : TestForm} (h : f.wf = true) : ReadAs lvl (encode (.test f)) (.test f) := by
  cases f with
  | rm8Reg8 x r => apply readAs_rm8 rfl (by simp) h
  | rm16Reg16 x r => apply readAs_rm16 rfl (by simp) h
  | alImm8 i => apply readAs_imm8 rfl
  | axImm16 i => apply readAs_imm16 rfl
  | rm8Imm8 x i => apply readAs_rm8Imm8 rfl rfl h
  | rm16Imm16 x i => apply readAs_rm16Imm16 rfl rfl h

/-! ## Every instruction -/

/-- The encoding of a well-formed instruction is read as that instruction, by what follows its opcode byte (R103, R105). -/
theorem readAs_encode {i : Instr} (h : i.wf lvl = true) : ReadAs lvl (encode i) i := by
  cases i with
  -- instructions with several forms
  | movRmReg f => exact readAs_movRmReg h
  | movRmImm f => exact readAs_movRmImm h
  | movRegImm f => exact readAs_movRegImm f
  | movMoffs f => exact readAs_movMoffs f
  | xchgRm f => exact readAs_xchgRm h
  | inPort f => exact (readAs_port f).1
  | outPort f => exact (readAs_port f).2
  | inc f => exact (readAs_inc_dec h).1
  | dec f => exact (readAs_inc_dec h).2
  | test f => exact readAs_test h
  | add f | or f | adc f | sbb f | and f | sub f | xor f | cmp f => exact readAs_alu _ h
  | not f | neg f | mul f | imul f | div f | idiv f => exact readAs_unary rfl rfl h
  | rol f | ror f | rcl f | rcr f | shl f | shr f | sar f => exact readAs_shift rfl h
  -- the opcode byte alone
  | xlat | lahf | sahf | pushf | popf | daa | das | aaa | aas | cbw | cwd | movsb | movsw | cmpsb | cmpsw | scasb | scasw
  | lodsb | lodsw | stosb | stosw | ret | retf | int3 | into | iret | clc | stc | cmc | cld | std | cli | sti | hlt | wait
  | nop | segEs | segCs | segSs | segDs | lock | repne | rep => exact readAs_op rfl
  | pushReg r | popReg r | pushSreg r => cases r <;> exact readAs_op rfl
  | popSreg sr =>
    cases sr with
    | cs => exact nomatch h
    | _ => exact readAs_op rfl
  | xchgAx r =>
    cases r with
    | ax => exact nomatch h
    | _ => exact readAs_op rfl
  -- an immediate after the opcode byte
  | aam i | aad i | jmpShort i | jo i | jno i | jb i | jae i | je i | jne i | jbe i | ja i | js i | jns i | jp i | jnp i
  | jl i | jge i | jle i | jg i | loop i | loopz i | loopnz i | jcxz i | int i => exact readAs_imm8 rfl
  | jmpNear d | callNear d | retImm d | retfImm d => exact readAs_imm16 rfl
  | jmpFar off sg | callFar off sg => exact readAs_ptr rfl
  -- a ModRM byte after the opcode byte
  | lea r m | lds r m | les r m => apply readAs_mem rfl (by simp) h
  | jmpMemFar m | callMemFar m => exact readAs_mem rfl rfl h
  | pushRm x | popRm x | jmpRm x | callRm x => exact readAs_rm16 rfl rfl h
  | movRmSreg x sr => apply readAs_rm16 rfl (by simp) h
  | movSregRm sr x =>
    obtain ⟨hsr, hx⟩ : sr ≠ .cs ∧ x.wf = true := by simpa [Instr.wf] using h
    apply readAs_rm16 rfl (by simp [hsr]) hx
  | esc n reg x => cases n using eight_cases <;> exact readAs_rm16 rfl rfl h
  -- the 80186 level
  | pusha | popa | insb | insw | outsb | outsw | leave =>
    obtain rfl : lvl = .i80186 := eq_of_beq h
    exact readAs_op rfl
  | pushImm8 i =>
    obtain rfl : lvl = .i80186 := eq_of_beq h
    exact readAs_imm8 rfl
  | pushImm16 i =>
    obtain rfl : lvl = .i80186 := eq_of_beq h
    exact readAs_imm16 rfl
  | enter size level =>
    obtain rfl : lvl = .i80186 := eq_of_beq h
    exact readAs_imm16Imm8 rfl
  | bound r m =>
    obtain ⟨rfl, hm⟩ : lvl = .i80186 ∧ m.wf = true := by simpa [Instr.wf] using h
    apply readAs_mem rfl (by simp) hm
  | imulImm16 r x i =>
    obtain ⟨rfl, hx⟩ : lvl = .i80186 ∧ x.wf = true := by simpa [Instr.wf] using h
    apply readAs_rm16Imm16 rfl (by simp) hx
  | imulImm8 r x i =>
    obtain ⟨rfl, hx⟩ : lvl = .i80186 ∧ x.wf = true := by simpa [Instr.wf] using h
    apply readAs_rm16Imm8 rfl (by simp) hx
  -- the fault rows
  | unrecognized op => exact readAs_op (opcodeEntry_of_isUnrecognized h)
  | decodeFault op m => exact readAs_decodeFault (faults_of_isDecodeFault h)

/-- Bytes that begin with the encoding of a well-formed instruction. -/
theorem decode_of_encode_isPrefix {i : Instr} {l : List Byte} (h : i.wf lvl = true) (hl : encode i <+: l) :
    decode lvl (byteAt l) = (i, (encode i).length) := by
  obtain ⟨rest, rfl⟩ := hl
  exact readAs_encode h rest

end Sys2Proof

open Sys2Proof

/-- Settles O5: each encoding is read back, by what follows the opcode byte. -/
theorem decodeOfEncode : Obligations.DecodeOfEncode := by
  unfold Obligations.DecodeOfEncode
  exact fun lvl i rest h => readAs_encode h rest

/-- Settles O8: each byte string begins with the encoding of its instruction, and encodings are read back. -/
theorem exampleBytesDecode : Obligations.ExampleBytesDecode := by
  unfold Obligations.ExampleBytesDecode
  and_intros <;> exact decode_of_encode_isPrefix rfl (by decide)
end

section
/-! PROOFS. The entry of the standard handler with its vector (R528), and the divide error as vector 0 raised over free status
flags (R529). -/

namespace Sys2Proof.Claims

open Sys2Proof Sys2Proof.Machine

/-- The address of a vector in the table at 0000h:0000h (R528). -/
theorem four_mul_zext16 (n : Byte) : 4#16 * zext16 n = BitVec.ofNat 16 (4 * n.toNat) := by
  rw [zext16_eq_ofNat, BitVec.ofNat_mul]

/-- The standard handler's entry goes where the vector in memory points: the two words at 0000h:4n (R528). -/
theorem guestVector_vector (s : State) (n : Byte) :
    (s.guestVector n).ip = (s.guestVector n).readWord 0#16 (BitVec.ofNat 16 (4 * n.toNat)) ∧
      (s.guestVector n).sreg .cs = (s.guestVector n).readWord 0#16 (BitVec.ofNat 16 (4 * n.toNat + 2)) := by
  rw [BitVec.ofNat_add, ← four_mul_zext16]
  exact ⟨rfl, rfl⟩

/-- The standard handler's entry clears IF and TF, and leaves the other flags (R528). -/
theorem guestVector_flags (s : State) (n : Byte) : (s.guestVector n).flags = { s.flags with iflag := false, tf := false } :=
  rfl

/-- The standard handler's entry leaves control state (R528). -/
theorem guestVector_controlSame (s : State) (n : Byte) : ControlSame s (s.guestVector n) :=
  ⟨rfl, rfl, rfl, rfl, rfl, rfl, rfl, rfl, rfl⟩

/-- TF, IF and DF in the image of the flags (R30). -/
theorem image_controlFlags (f : Flags) :
    f.image.getLsbD 8 = f.tf ∧ f.image.getLsbD 9 = f.iflag ∧ f.image.getLsbD 10 = f.df :=
  ⟨image_bits f (by decide), image_bits f (by decide), image_bits f (by decide)⟩

/-- With no handler in the slot the log alone may grow, by one record (R524, R525). -/
theorem raiseInterrupt_of_none_diag {s : State} {n : Byte} (h : lookup s.intTable n.toNat = none) :
    s.raiseInterrupt n =
      { s with diag := if s.cfg.strictDiag = true then s.diag ++ [.unmappedInterrupt s.cs0 s.ip0 n] else s.diag } := by
  rw [raiseInterrupt_of_none h]
  split <;> rfl

/-- The image of the flags at reset is its fixed bits (R30, R42). -/
theorem image_zero : Flags.zero.image = 0xF002#16 := by decide

/-- The reset address, where the first instruction is fetched (R570). -/
theorem phys_reset : phys 0xFFFF#16 0#16 = 0xFFFF0 := by decide

end Sys2Proof.Claims
end

section
/-! PROOFS. The obligations of `60_exceptions.md` and `70_reset_and_hazards.md`. -/

open Sys2Proof Sys2Proof.Machine Sys2Proof.Claims

/-- Settles O15: what the standard handler's entry pushes, clears, loads and leaves. -/
theorem guestVectorEntry : Obligations.GuestVectorEntry := by
  unfold Obligations.GuestVectorEntry
  intro s n hslot
  rw [raiseInterrupt_of_guestVector hslot]
  obtain ⟨hpushed, hsregs⟩ := guestVector_pushes s n
  obtain ⟨hip, hcs⟩ := guestVector_vector s n
  exact ⟨hpushed, guestVector_flags s n, hip, hcs, hsregs, guestVector_controlSame s n⟩

/-- Settles O38: vector 0 raised after the free flags are drawn; the image pushed has the control flags as they were. -/
theorem divideErrorEntry : Obligations.DivideErrorEntry := by
  unfold Obligations.DivideErrorEntry
  intro s
  obtain ⟨htf, hif, hdf⟩ := controlFlags_applyFlags s .allUndef
  refine ⟨⟨_, _, htf, hif, hdf, rfl⟩, fun hslot => ?noHandler, fun hslot => ?standard⟩
  case noHandler =>
    have hraise := raiseInterrupt_of_none_diag (s := s.applyFlags .allUndef) (n := 0#8) hslot
    rw [State.divideError, hraise]
    exact ⟨onlyData_refl _, ⟨htf, hif, hdf⟩, .of_regs rfl _, .of_mem rfl _⟩
  case standard =>
    obtain ⟨hpushed, hflags, hip, hcs, hsregs, hcontrol⟩ := guestVectorEntry (s.applyFlags .allUndef) 0#8 hslot
    obtain ⟨h8, h9, h10⟩ := image_controlFlags (s.applyFlags .allUndef).flags
    exact ⟨_, hpushed, h8.trans htf, h9.trans hif, h10.trans hdf, congrArg Flags.iflag hflags, congrArg Flags.tf hflags,
      hip, hcs, hsregs, hcontrol⟩

/-- Settles O18: the fields of the state at boot, with the parameters and the memory of the state. -/
theorem resetEventValues : Obligations.ResetEventValues := by
  unfold Obligations.ResetEventValues
  intro s
  exact ⟨rfl, rfl, rfl, rfl, rfl, image_zero, rfl, rfl, rfl, rfl, rfl, rfl, rfl, rfl, rfl, phys_reset, rfl⟩

end
